-- ==== Sys2Proof/Word.lean ====
section
/-! DEFINITION. Words of XLEN bits (R7, R159) and data memory as plain data (R60, R62). XLEN is a parameter of the CORE (R6), so a
word is kept by its signed reading, an integer, as R7 compares it and R20 shows it; every operation that could leave the words takes
XLEN and wraps (log entry 9). -/

namespace Sys2Proof

/-- `s32` of R7 for XLEN = `n`: the word congruent to `v` modulo 2^n, by its signed reading. -/
def wrap (n : Nat) (v : Int) : Int := v.bmod (2 ^ n)

/-- `v` is the signed reading of a word of `n` bits: it lies in -2^(n-1) to 2^(n-1) - 1. -/
def isWord (n : Nat) (v : Int) : Bool := wrap n v == v

/-- Data memory (R47, R60, R62: "A model represents data memory as a map from cell index to word"): the cells that do not
read 0, as pairs (cell index, word) with rising indices. A cell that is not listed reads 0 (R54, decision D5). -/
abbrev Memory := List (Nat × Int)

end Sys2Proof
end

