-- ==== Sys2Proof/Config.lean ====
section
/-! DEFINITION. What is fixed when the CORE is constructed: the closed opcode set, the instruction records the loader supplies,
and the parameters of the step with their stated defaults (R6, R48, R50, R51, R80, R81). -/

namespace Sys2Proof

/-- The closed set of 18 opcodes (R81). -/
inductive Opcode where
  | movc | add | addl | sub | subl | mul | and | or | xor
  | load | ldr | store | str
  | bz | bnz | jump | halt | nop
  deriving DecidableEq, Repr

/-- The opcode of an instruction record: one of the 18, or a text that is none of them (R42, R86). -/
inductive RecordOp where
  | known (o : Opcode)
  | unknown (text : String)
  deriving DecidableEq, Repr

/-- An instruction record `{opcode, rd, rs1, rs2, rs3, imm}` (R80). The register fields are integers, not yet range-checked
(R84); `imm` is one signed word. -/
structure Record where
  opcode : RecordOp
  rd : Int
  rs1 : Int
  rs2 : Int
  rs3 : Int
  imm : Int
  deriving DecidableEq, Repr

/-- The register fields of a record, as the checks and faults name them (R230, R233). -/
inductive Field where
  | rd | rs1 | rs2 | rs3
  deriving DecidableEq, Repr

/-- The opcode of a stage latch: one of the 18, the latch-only sentinel `BUBBLE`, or `UNKNOWN(text)` (R42). -/
inductive LatchOp where
  | bubble
  | op (o : Opcode)
  | unknown (text : String)
  deriving DecidableEq, Repr

/-- FETCH_OOB: what Fetch does at a pc outside the program (R6, R106, decision D21). -/
inductive FetchOob where
  | bubble
  | fault
  deriving DecidableEq, Repr

/-- RUN_MODE (R51, decision D25): no rule reads it. -/
inductive RunMode where
  | verbose
  | silent
  deriving DecidableEq, Repr

/-- A register field of a record. -/
def Record.field (r : Record) : Field → Int
  | .rd => r.rd
  | .rs1 => r.rs1
  | .rs2 => r.rs2
  | .rs3 => r.rs3

/-- The parameters and inputs of the step (R6, R48), each with the default R6 states. They are fixed at construction
(R245: "Everything a run depends on is fixed at construction"). `code`, `cycleBudget` and `runMode` are inputs and R6 states no
default for them: DESIGN CHOICE, log entry 6. -/
structure Config where
  /-- NREG: the number of general registers and of scoreboard bits (R21, R24). -/
  nreg : Nat := 32
  /-- XLEN: the width in bits of a register, a data cell, an immediate and the pc (decision D1). -/
  xlen : Nat := 32
  /-- W, `instruction_width`: the pc increment and the alignment of targets (decision D2). -/
  width : Nat := 4
  /-- CODE_BASE: the pc of code index 0 and the reset pc (decision D3). -/
  codeBase : Int := 4000
  /-- DMEM_SIZE: the number of data cells (decision D4). -/
  dmemSize : Nat := 4096
  /-- DMEM_INIT: the data cells that are not 0 at reset (decision D5: all cells 0). -/
  dmemInit : Memory := []
  /-- BSTALL_MAX: the branch-stall budget. -/
  bstallMax : Nat := 4
  /-- BR_STALL_SET: the opcodes in Execute1 that make BZ and BNZ stall (decision D10). -/
  brStallSet : List LatchOp := [.op .add, .op .addl, .op .sub, .op .subl, .op .mul, .op .nop, .bubble]
  /-- NOP_COUNTS: whether a retiring program NOP is counted (decision D8). -/
  nopCounts : Bool := true
  /-- FLUSH_FETCH_HOLD: whether Fetch is suppressed in the tick of a flush (decision D18). -/
  flushFetchHold : Bool := false
  /-- FETCH_OOB (decision D21). -/
  fetchOob : FetchOob := .bubble
  /-- The source field of format JI, JUMP's base (R215 and `93_implementation_defined.md` I7: "`parameter`: the JI format's
  source field, default `rd`"; decision D13). -/
  jumpBase : Field := .rd
  /-- CYCLE_BUDGET: 0 or less is unbounded (decision D24). -/
  cycleBudget : Int := 0
  /-- RUN_MODE (decision D25). -/
  runMode : RunMode := .silent
  /-- The code sequence the loader supplies (R46, R50); its length is N. -/
  code : List Record := []
  deriving DecidableEq, Repr

/-- The defaults of R6 with no program loaded (log entry 6). -/
def Config.default : Config := {}

end Sys2Proof
end

