-- ==== Sys2Proof/Syntax.lean ====
section
/-! DEFINITION. The instructions, one constructor per row of the opcode table, each with exactly the record fields its format
uses (R83). -/

namespace Sys2Proof

/-- An instruction: its opcode with the fields its format uses (R81, R83). A register field is the integer of the record, not
yet range-checked (R84); a literal or an offset is one signed word. -/
inductive Instr where
  /-- `MOVC Rd,#imm` (R160, format MI). -/
  | movc (rd : Int) (imm : Int)
  /-- `ADD Rd,Rs1,Rs2` (R161, format R3). -/
  | add (rd rs1 rs2 : Int)
  /-- `ADDL Rd,Rs1,#imm` (R162, format RI). -/
  | addl (rd rs1 : Int) (imm : Int)
  /-- `SUB Rd,Rs1,Rs2` (R163, format R3). -/
  | sub (rd rs1 rs2 : Int)
  /-- `SUBL Rd,Rs1,#imm` (R164, format RI). -/
  | subl (rd rs1 : Int) (imm : Int)
  /-- `MUL Rd,Rs1,Rs2` (R165, format R3). -/
  | mul (rd rs1 rs2 : Int)
  /-- `AND Rd,Rs1,Rs2` (R180, format R3). -/
  | and (rd rs1 rs2 : Int)
  /-- `OR Rd,Rs1,Rs2` (R181, format R3). -/
  | or (rd rs1 rs2 : Int)
  /-- `XOR Rd,Rs1,Rs2` (R182, format R3). -/
  | xor (rd rs1 rs2 : Int)
  /-- `LOAD Rd,Rs1,#imm` (R190, format RI): `rs1` is the base. -/
  | load (rd rs1 : Int) (imm : Int)
  /-- `LDR Rd,Rs1,Rs2` (R191, format R3): `rs1` is the base, `rs2` the index. -/
  | ldr (rd rs1 rs2 : Int)
  /-- `STORE Rs1,Rs2,#imm` (R192, format SI): `rs1` is the data, `rs2` the base. -/
  | store (rs1 rs2 : Int) (imm : Int)
  /-- `STR Rs1,Rs2,Rs3` (R193, format SR): `rs1` is the data, `rs2` the base, `rs3` the index. -/
  | str (rs1 rs2 rs3 : Int)
  /-- `BZ #imm` (R210, format BI): `imm` is relative to the branch's own pc. -/
  | bz (imm : Int)
  /-- `BNZ #imm` (R211, format BI). -/
  | bnz (imm : Int)
  /-- `JUMP Rd,#imm` (R212, format JI): `base` is the register the format's source field names, `rd` by default (R215, I7). -/
  | jump (base : Int) (imm : Int)
  /-- `HALT` (R214, format N0). -/
  | halt
  /-- `NOP` (R213, format N0); no bubble (decision D8). -/
  | nop
  deriving DecidableEq, Repr

end Sys2Proof
end

