-- ==== Sys2Proof/WellFormed.lean ====
section
/-! DEFINITION. Well-formed instructions (R84: a used register field must be in `0..NREG-1`), code sequences and parameters (R6). -/

namespace Sys2Proof

/-- The register fields an instruction uses, in the order rd, rs1, rs2, rs3 in which Decode checks them (R83, R233); `ji` is the
source field of format JI. -/
def Instr.registerFields (ji : Field) : Instr → List (Field × Int)
  | .movc rd _ => [(.rd, rd)]
  | .add rd rs1 rs2 => [(.rd, rd), (.rs1, rs1), (.rs2, rs2)]
  | .addl rd rs1 _ => [(.rd, rd), (.rs1, rs1)]
  | .sub rd rs1 rs2 => [(.rd, rd), (.rs1, rs1), (.rs2, rs2)]
  | .subl rd rs1 _ => [(.rd, rd), (.rs1, rs1)]
  | .mul rd rs1 rs2 => [(.rd, rd), (.rs1, rs1), (.rs2, rs2)]
  | .and rd rs1 rs2 => [(.rd, rd), (.rs1, rs1), (.rs2, rs2)]
  | .or rd rs1 rs2 => [(.rd, rd), (.rs1, rs1), (.rs2, rs2)]
  | .xor rd rs1 rs2 => [(.rd, rd), (.rs1, rs1), (.rs2, rs2)]
  | .load rd rs1 _ => [(.rd, rd), (.rs1, rs1)]
  | .ldr rd rs1 rs2 => [(.rd, rd), (.rs1, rs1), (.rs2, rs2)]
  | .store rs1 rs2 _ => [(.rs1, rs1), (.rs2, rs2)]
  | .str rs1 rs2 rs3 => [(.rs1, rs1), (.rs2, rs2), (.rs3, rs3)]
  | .bz _ => []
  | .bnz _ => []
  | .jump base _ => [(ji, base)]
  | .halt => []
  | .nop => []

/-- The literal an instruction's format uses (R83). -/
def Instr.literal? : Instr → Option Int
  | .movc _ imm => some imm
  | .add _ _ _ => none
  | .addl _ _ imm => some imm
  | .sub _ _ _ => none
  | .subl _ _ imm => some imm
  | .mul _ _ _ => none
  | .and _ _ _ => none
  | .or _ _ _ => none
  | .xor _ _ _ => none
  | .load _ _ imm => some imm
  | .ldr _ _ _ => none
  | .store _ _ imm => some imm
  | .str _ _ _ => none
  | .bz imm => some imm
  | .bnz imm => some imm
  | .jump _ imm => some imm
  | .halt => none
  | .nop => none

/-- A register field is in `0..NREG-1` (R84). -/
def inRange (nreg : Nat) (v : Int) : Bool := decide (0 ≤ v ∧ v < nreg)

/-- Every register field the instruction uses names a register (R84). Decode faults on any other instruction (R233). -/
def Instr.fieldsInRange (c : Config) (i : Instr) : Bool :=
  (i.registerFields c.jumpBase).all fun p => inRange c.nreg p.2

/-- The fields and the literal of an instruction are as R84 says: registers that exist, and one signed word of XLEN bits. -/
def Instr.wellFormed (c : Config) (i : Instr) : Bool :=
  i.fieldsInRange c && i.literal?.all (isWord c.xlen)

/-- W is a power of two (R6: "W is a power of two", decision D30). -/
def isPowerOfTwo (w : Nat) : Bool :=
  w == 2 ^ Nat.log2 w

/-- An address is a multiple of the instruction width `w` (R29, R63). -/
def alignedTo (w : Nat) (v : Int) : Bool :=
  v % (w : Int) == 0

/-- The canonical form of data memory: indices strictly rising, no listed cell 0. -/
def Memory.wf : Memory → Bool
  | [] => true
  | [(_, v)] => v != 0
  | (k, v) :: (k', v') :: rest => v != 0 && decide (k < k') && Memory.wf ((k', v') :: rest)

/-- Every value R7 calls a word fits XLEN: CODE_BASE, the cells of DMEM_INIT, and the literals of the records (R84: "`imm` is one
signed XLEN-bit word"). -/
def Config.wordsFit (c : Config) : Bool :=
  isWord c.xlen c.codeBase && (c.dmemInit.all fun p => isWord c.xlen p.2) && c.code.all fun r => isWord c.xlen r.imm

/-- The constraints R6 puts on the parameters ("W is a power of two and ... CODE_BASE mod W = 0"), every word a word of XLEN bits,
and DMEM_INIT a canonical memory of cells that exist (log entry 11). -/
def Config.wellFormed (c : Config) : Bool :=
  isPowerOfTwo c.width && alignedTo c.width c.codeBase && c.wordsFit && Memory.wf c.dmemInit &&
    c.dmemInit.all fun p => decide (p.1 < c.dmemSize)

end Sys2Proof
end

