-- ==== Sys2Proof/Decode.lean ====
section
/-! DEFINITION. The decoder from records to instructions (R80 to R86), total and rejecting by name, and after it the encoder from
the same table (R83, R85). The spec gives an instruction no bit layout (N3, decision D6): an instruction's "word" is its record,
and the only number in it is the 8-bit tag of R85 (log entry 8). -/

namespace Sys2Proof

/-- What the decoder answers: an instruction, or the opcode text no opcode has (R86). -/
inductive Decoded where
  | instr (i : Instr)
  | unrecognizedOpcode (text : String)
  deriving DecidableEq, Repr

/-- The instruction an opcode makes of a record's fields: those its format uses (R83); every other field is ignored (decision
D40). `ji` is the source field of format JI (R215, I7). -/
def decodeFields (ji : Field) (o : Opcode) (rd rs1 rs2 rs3 : Int) (imm : Int) : Instr :=
  match o with
  | .movc => .movc rd imm
  | .add => .add rd rs1 rs2
  | .addl => .addl rd rs1 imm
  | .sub => .sub rd rs1 rs2
  | .subl => .subl rd rs1 imm
  | .mul => .mul rd rs1 rs2
  | .and => .and rd rs1 rs2
  | .or => .or rd rs1 rs2
  | .xor => .xor rd rs1 rs2
  | .load => .load rd rs1 imm
  | .ldr => .ldr rd rs1 rs2
  | .store => .store rs1 rs2 imm
  | .str => .str rs1 rs2 rs3
  | .bz => .bz imm
  | .bnz => .bnz imm
  | .jump =>
    match ji with
    | .rd => .jump rd imm
    | .rs1 => .jump rs1 imm
    | .rs2 => .jump rs2 imm
    | .rs3 => .jump rs3 imm
  | .halt => .halt
  | .nop => .nop

/-- The decoder: total on records, refusing an opcode outside the 18 by its text (R86). -/
def decode (ji : Field) (r : Record) : Decoded :=
  match r.opcode with
  | .known o => .instr (decodeFields ji o r.rd r.rs1 r.rs2 r.rs3 r.imm)
  | .unknown t => .unrecognizedOpcode t

/-- The opcode a tag selects (R85: `tag == match` under mask 0xFF). 0x00 (`BUBBLE`) and 0x13 to 0xFF select none (R86). -/
def opcodeOfTag (tag : BitVec 8) : Option Opcode :=
  match tag.toNat with
  | 0x01 => some .movc
  | 0x02 => some .add
  | 0x03 => some .addl
  | 0x04 => some .sub
  | 0x05 => some .subl
  | 0x06 => some .mul
  | 0x07 => some .and
  | 0x08 => some .or
  | 0x09 => some .xor
  | 0x0A => some .load
  | 0x0B => some .ldr
  | 0x0C => some .store
  | 0x0D => some .str
  | 0x0E => some .bz
  | 0x0F => some .bnz
  | 0x10 => some .jump
  | 0x11 => some .halt
  | 0x12 => some .nop
  | _ => none

/-- One hexadecimal digit. -/
def hexDigit (n : Nat) : Char :=
  Nat.digitChar (n % 16)

/-- The record opcode of a tag; a tag that selects no opcode is named by its two hexadecimal digits (log entry 8). -/
def recordOpOfTag (tag : BitVec 8) : RecordOp :=
  match opcodeOfTag tag with
  | some o => .known o
  | none => .unknown (String.ofList ['0', 'x', hexDigit (tag.toNat / 16), hexDigit tag.toNat])

/-- The record with a tag for its opcode, as the spec writes records (`95_test_vectors.md`, Conventions). -/
def recordOfTag (tag : BitVec 8) (rd rs1 rs2 rs3 : Int) (imm : Int) : Record :=
  { opcode := recordOpOfTag tag, rd := rd, rs1 := rs1, rs2 := rs2, rs3 := rs3, imm := imm }

/-- The record of the opcode table's number `w` of `nbits` bits: the tag is its low byte, every other field is 0. -/
def recordOfTableWord (nbits w : Nat) : Record :=
  recordOfTag (BitVec.ofNat 8 (w % 2 ^ nbits)) 0 0 0 0 0

/-- What the decoder reads from the opcode table's number `w` of `nbits` bits, with the default source field of format JI. -/
def decodeTableWord (nbits w : Nat) : Option Instr :=
  match decode .rd (recordOfTableWord nbits w) with
  | .instr i => some i
  | .unrecognizedOpcode _ => none

/-- The tag of an opcode (R85). -/
def tagOf : Opcode → BitVec 8
  | .movc => 0x01
  | .add => 0x02
  | .addl => 0x03
  | .sub => 0x04
  | .subl => 0x05
  | .mul => 0x06
  | .and => 0x07
  | .or => 0x08
  | .xor => 0x09
  | .load => 0x0A
  | .ldr => 0x0B
  | .store => 0x0C
  | .str => 0x0D
  | .bz => 0x0E
  | .bnz => 0x0F
  | .jump => 0x10
  | .halt => 0x11
  | .nop => 0x12

/-- The encoder: the record of an instruction, a field its format does not use being 0 (log entry 8: any value would do,
decision D40). -/
def encode (ji : Field) (i : Instr) : Record :=
  match i with
  | .movc rd imm => recordOfTag (tagOf .movc) rd 0 0 0 imm
  | .add rd rs1 rs2 => recordOfTag (tagOf .add) rd rs1 rs2 0 0
  | .addl rd rs1 imm => recordOfTag (tagOf .addl) rd rs1 0 0 imm
  | .sub rd rs1 rs2 => recordOfTag (tagOf .sub) rd rs1 rs2 0 0
  | .subl rd rs1 imm => recordOfTag (tagOf .subl) rd rs1 0 0 imm
  | .mul rd rs1 rs2 => recordOfTag (tagOf .mul) rd rs1 rs2 0 0
  | .and rd rs1 rs2 => recordOfTag (tagOf .and) rd rs1 rs2 0 0
  | .or rd rs1 rs2 => recordOfTag (tagOf .or) rd rs1 rs2 0 0
  | .xor rd rs1 rs2 => recordOfTag (tagOf .xor) rd rs1 rs2 0 0
  | .load rd rs1 imm => recordOfTag (tagOf .load) rd rs1 0 0 imm
  | .ldr rd rs1 rs2 => recordOfTag (tagOf .ldr) rd rs1 rs2 0 0
  | .store rs1 rs2 imm => recordOfTag (tagOf .store) 0 rs1 rs2 0 imm
  | .str rs1 rs2 rs3 => recordOfTag (tagOf .str) 0 rs1 rs2 rs3 0
  | .bz imm => recordOfTag (tagOf .bz) 0 0 0 0 imm
  | .bnz imm => recordOfTag (tagOf .bnz) 0 0 0 0 imm
  | .jump base imm =>
    match ji with
    | .rd => recordOfTag (tagOf .jump) base 0 0 0 imm
    | .rs1 => recordOfTag (tagOf .jump) 0 base 0 0 imm
    | .rs2 => recordOfTag (tagOf .jump) 0 0 base 0 imm
    | .rs3 => recordOfTag (tagOf .jump) 0 0 0 base imm
  | .halt => recordOfTag (tagOf .halt) 0 0 0 0 0
  | .nop => recordOfTag (tagOf .nop) 0 0 0 0 0

/-- The register producers (R82). -/
def Opcode.isProducer : Opcode → Bool
  | .movc | .add | .addl | .sub | .subl | .mul | .and | .or | .xor | .load | .ldr => true
  | .store | .str | .bz | .bnz | .jump | .halt | .nop => false

/-- The flag producers (R82): the arithmetic opcodes that define Z. -/
def Opcode.isFlagProducer : Opcode → Bool
  | .add | .addl | .sub | .subl | .mul => true
  | .movc | .and | .or | .xor | .load | .ldr | .store | .str | .bz | .bnz | .jump | .halt | .nop => false

/-- The opcode of an instruction. -/
def Instr.opcode : Instr → Opcode
  | .movc _ _ => .movc
  | .add _ _ _ => .add
  | .addl _ _ _ => .addl
  | .sub _ _ _ => .sub
  | .subl _ _ _ => .subl
  | .mul _ _ _ => .mul
  | .and _ _ _ => .and
  | .or _ _ _ => .or
  | .xor _ _ _ => .xor
  | .load _ _ _ => .load
  | .ldr _ _ _ => .ldr
  | .store _ _ _ => .store
  | .str _ _ _ => .str
  | .bz _ => .bz
  | .bnz _ => .bnz
  | .jump _ _ => .jump
  | .halt => .halt
  | .nop => .nop

end Sys2Proof
end

