-- ==== Sys2Proof/Machine/State.lean ====
section
/-! DEFINITION. The CPU State (R20), its reset (R54, R55, R260), and the reasons a step could end without a next state. -/

namespace Sys2Proof.Machine

/-- The seven stage procedures, in pipeline order (R41). -/
inductive Stage where
  | fetch | decode | execute1 | execute2 | memory1 | memory2 | writeback
  deriving DecidableEq, Repr

/-- A stage latch (R40). -/
structure Latch where
  /-- The address the instruction was fetched from. -/
  pc : Int
  /-- The instruction's opcode, or the bubble sentinel (R42). -/
  opcode : LatchOp
  /-- Register fields as the record gives them, not range-checked (R84). -/
  rd : Int
  rs1 : Int
  rs2 : Int
  rs3 : Int
  imm : Int
  /-- Source values read by Decode; JUMP's base is in `rs1Value` (decision D13). -/
  rs1Value : Int
  rs2Value : Int
  rs3Value : Int
  /-- The result to be written back. -/
  buffer : Int
  /-- The effective address computed by Execute1. -/
  memAddress : Int
  /-- JUMP only: the redirect address (decision D15). -/
  nextAddr : Int
  /-- "stage performing no useful work this cycle". -/
  busy : Bool
  /-- "cannot advance due to a hazard this cycle". -/
  stalled : Bool
  deriving DecidableEq, Repr

/-- `bubble(st)` (R9): opcode `BUBBLE`, every numeric field 0, `busy = 0`, `stalled = st`. -/
def bubble (st : Bool) : Latch :=
  { pc := 0, opcode := .bubble, rd := 0, rs1 := 0, rs2 := 0, rs3 := 0, imm := 0,
    rs1Value := 0, rs2Value := 0, rs3Value := 0, buffer := 0, memAddress := 0, nextAddr := 0,
    busy := false, stalled := st }

/-- The seven latches (R41). -/
structure Latches where
  /-- `L[F]` -/
  f : Latch
  /-- `L[DRF]` -/
  drf : Latch
  /-- `L[EX1]` -/
  ex1 : Latch
  /-- `L[EX2]` -/
  ex2 : Latch
  /-- `L[MEM1]` -/
  mem1 : Latch
  /-- `L[MEM2]` -/
  mem2 : Latch
  /-- `L[WB]` -/
  wb : Latch
  deriving DecidableEq, Repr

/-- The kinds of the spec's faults (R230). -/
inductive FaultKind where
  | unrecognizedOpcode
  | addressOutOfRange
  deriving DecidableEq, Repr

/-- What the spec's faults record beside the pc (R230). -/
inductive FaultInfo where
  /-- The opcode as given (code 1). -/
  | opcode (text : String)
  /-- A register field and its value (code 2). -/
  | register (field : Field) (value : Int)
  /-- A data address (code 3). -/
  | data (address : Int)
  /-- A fetch address (code 4). -/
  | code (pc : Int)
  deriving DecidableEq, Repr

/-- `status` (R38). -/
inductive Status where
  | running
  | completed
  | budgetExhausted
  | faulted (kind : FaultKind) (stage : Stage) (pc : Int) (info : FaultInfo)
  deriving DecidableEq, Repr

/-- The CPU State (R20), the parameters and inputs (R48, log entry 2) and the running stage procedure (log entry 1). -/
structure State where
  /-- The general registers `x[0]` to `x[NREG-1]` (R21), NREG of them. -/
  x : List Int
  /-- The scoreboard (R24), NREG bits. -/
  valid : List Bool
  /-- The program counter (R27). -/
  pc : Int
  /-- The zero flag `Z` (R30). -/
  z : Bool
  /-- `clock` (R31). -/
  clock : Nat
  /-- `completed` (R32). -/
  completed : Nat
  /-- `program_size` (R33). -/
  programSize : Nat
  /-- `bstall` (R34). -/
  bstall : Nat
  /-- `br_pending` (R35). -/
  brPending : Bool
  /-- `br_target` (R35). -/
  brTarget : Int
  /-- `jmp_pending` (R36). -/
  jmpPending : Bool
  /-- `jmp_addr` (R36). -/
  jmpAddr : Int
  /-- `halt_flag` (R37). -/
  haltFlag : Bool
  /-- `status` (R38). -/
  status : Status
  /-- `flushed_now` (R39). -/
  flushedNow : Bool
  /-- The stage latches (R41). -/
  latches : Latches
  /-- Data memory (R47). -/
  dmem : Memory
  /-- The parameters and inputs, the code memory among them (R46, R48): nothing writes it. -/
  cfg : Config
  /-- The stage procedure that is running (R101): the model's own field. DESIGN CHOICE, log entry 1. -/
  stage : Stage
  deriving DecidableEq, Repr

/-- The reasons the model stops WITHOUT a next state. The spec's own faults are not among them: they are the status
`Faulted` of a next state (R38, R231, log entry 3). -/
inductive Fault where
  /-- Raised by Execute1's reservation and Writeback's commit when the instruction's destination field names none of the NREG
  registers. Decode has raised AddressOutOfRange for such an instruction (R233), so no run reaches it; the spec gives it no
  effect there. SAFE: the model stops where no machine gets (DEDUCED, log entry 4). -/
  | noSuchRegister (stage : Stage) (field : Int)
  deriving DecidableEq, Repr

/-- The reasons an instruction has no meaning. -/
inductive Refusal where
  /-- Raised by an arm of `exec` that has no meaning yet. SAFE: nothing is claimed of it. No arm uses it. -/
  | notModelled (mnemonic : String)
  deriving DecidableEq, Repr

/-- What a step, a stage procedure or a meaning answers. -/
abbrev Result := Host.Outcome State Fault Refusal

/-- The latches at reset (R55): `L[F]` not busy, so that Fetch is active in tick 1, and the other six busy (decision D36). -/
def Latches.reset : Latches :=
  let idle : Latch := { bubble false with busy := true }
  { f := bubble false, drf := idle, ex1 := idle, ex2 := idle, mem1 := idle, mem2 := idle, wb := idle }

/-- Construction, the only reset (R54, R260): every piece of state at the value of R54, for the given parameters and inputs. -/
def State.construct (cfg : Config) : State :=
  { x := List.replicate cfg.nreg 0
    valid := List.replicate cfg.nreg true
    pc := cfg.codeBase
    z := false
    clock := 0
    completed := 0
    programSize := cfg.code.length
    bstall := 0
    brPending := false
    brTarget := 0
    jmpPending := false
    jmpAddr := 0
    haltFlag := false
    status := .running
    flushedNow := false
    latches := Latches.reset
    dmem := cfg.dmemInit
    cfg := cfg
    stage := .fetch }

/-- The machine right after reset, with the default parameters and no program loaded (log entry 6). -/
def State.reset : State := State.construct Config.default

end Sys2Proof.Machine
end

