-- ==== Sys2Proof/Machine/Ops.lean ====
section
/-! DEFINITION. The named operations the stage procedures and the meanings share: latches, registers, the scoreboard, data
memory, forwarding, flushing, raising a fault (R8, R104, R105, R113, R122, R130, R131, R64, R65, R231). -/

namespace Sys2Proof.Machine

/-! ### Latches -/

/-- `L[S]` (R8). -/
def Latches.get (l : Latches) : Stage → Latch
  | .fetch => l.f
  | .decode => l.drf
  | .execute1 => l.ex1
  | .execute2 => l.ex2
  | .memory1 => l.mem1
  | .memory2 => l.mem2
  | .writeback => l.wb

/-- `L[S] <- v`. -/
def Latches.set (l : Latches) (S : Stage) (v : Latch) : Latches :=
  match S with
  | .fetch => { l with f := v }
  | .decode => { l with drf := v }
  | .execute1 => { l with ex1 := v }
  | .execute2 => { l with ex2 := v }
  | .memory1 => { l with mem1 := v }
  | .memory2 => { l with mem2 := v }
  | .writeback => { l with wb := v }

/-- `L[S]` of a state. -/
def State.latch (s : State) (S : Stage) : Latch := s.latches.get S

/-- `L[S] <- v` in a state. -/
def State.setLatch (s : State) (S : Stage) (v : Latch) : State :=
  { s with latches := s.latches.set S v }

/-- The latch of the stage procedure that is running. -/
def State.own (s : State) : Latch := s.latch s.stage

/-- Writes the latch of the stage procedure that is running. -/
def State.setOwn (s : State) (v : Latch) : State := s.setLatch s.stage v

/-- `active(l)` (R104). -/
def Latch.active (l : Latch) : Bool :=
  l.opcode != .bubble && !l.busy && !l.stalled

/-- The opcode of a record, in a latch (R42). -/
def latchOpOf : RecordOp → LatchOp
  | .known o => .op o
  | .unknown t => .unknown t

/-- The latch Fetch fills from the record at `pc`, its value fields 0 and its flags 0 (R106, decision D29). -/
def fetchedLatch (pc : Int) (r : Record) : Latch :=
  { bubble false with
    pc := pc, opcode := latchOpOf r.opcode, rd := r.rd, rs1 := r.rs1, rs2 := r.rs2, rs3 := r.rs3, imm := r.imm }

/-- The instruction a latch holds; none for a bubble and for an unknown opcode. `ji` is the source field of format JI. -/
def Latch.instr? (ji : Field) (l : Latch) : Option Instr :=
  match l.opcode with
  | .op o => some (decodeFields ji o l.rd l.rs1 l.rs2 l.rs3 l.imm)
  | .bubble => none
  | .unknown _ => none

/-- Whether a latch holds a register producer (R82). -/
def Latch.holdsProducer (l : Latch) : Bool :=
  match l.opcode with
  | .op o => o.isProducer
  | .bubble => false
  | .unknown _ => false

/-! ### Sequencing -/

/-- Goes on with `f` in the next state, unless a fault has stopped the run (R231: "S stops at the raise"). -/
def thenRun (r : Result) (f : State → Result) : Result :=
  match r with
  | .next s => if s.status = .running then f s else .next s
  | .fault e => .fault e
  | .refused e => .refused e

/-- `raise Fault(kind, info)` in the running stage, for the instruction at `pc` (R231): the stage writes nothing, the status
becomes `Faulted`, and the driver ends the tick. -/
def raise (kind : FaultKind) (pc : Int) (info : FaultInfo) (s : State) : Result :=
  .next { s with status := .faulted kind s.stage pc info }

/-- The numeric code of a fault (R230). -/
def Status.faultCode? : Status → Option Nat
  | .faulted .unrecognizedOpcode _ _ _ => some 1
  | .faulted .addressOutOfRange _ _ (.register _ _) => some 2
  | .faulted .addressOutOfRange _ _ (.data _) => some 3
  | .faulted .addressOutOfRange _ _ (.code _) => some 4
  | .faulted .addressOutOfRange _ _ (.opcode _) => none
  | .running => none
  | .completed => none
  | .budgetExhausted => none

/-! ### Registers and the scoreboard -/

/-- The number of the register a field names, if there is one (R84: `0..NREG-1`). -/
def regIndex? (nreg : Nat) (v : Int) : Option Nat :=
  if inRange nreg v then some v.toNat else none

/-- `x[r]` (R8). No register is hardwired (R22). -/
def State.readReg (s : State) (r : Nat) : Int := s.x.getD r 0

/-- `x[r] <- v`. -/
def State.writeReg (s : State) (r : Nat) (v : Int) : State :=
  { s with x := s.x.set r v }

/-- `valid[r]`. -/
def State.isValid (s : State) (r : Nat) : Bool := s.valid.getD r false

/-- `valid[r] <- b`. -/
def State.setValid (s : State) (r : Nat) (b : Bool) : State :=
  { s with valid := s.valid.set r b }

/-- The field check of Decode (R107, R233): raises AddressOutOfRange unless the field names a register. -/
def checkField (f : Field) (v : Int) (s : State) (k : Nat → Result) : Result :=
  match regIndex? s.cfg.nreg v with
  | some r => k r
  | none => raise .addressOutOfRange s.own.pc (.register f v) s

/-- The register a destination field names, past Decode's check; a field that names none stops the model (log entry 4). -/
def withDest (rd : Int) (s : State) (k : Nat → Result) : Result :=
  match regIndex? s.cfg.nreg rd with
  | some r => k r
  | none => .fault (.noSuchRegister s.stage rd)

/-- Execute1's reservation (R113): `valid[rd] <- 0`. -/
def reserve (rd : Int) (s : State) : Result :=
  withDest rd s fun r => .next (s.setValid r false)

/-- Memory2 holds an active register producer whose destination field is `rd` (R131). -/
def sameDestinationBehind (rd : Int) (s : State) : Bool :=
  let n := s.latch .memory2
  n.active && n.holdsProducer && n.rd == rd

/-- Writeback's release (R131): `valid[rd] <- 1`, unless Memory2 holds an active register producer of the same register. Then the
bit is NOT WRITTEN: the pseudocode's branch "(valid[w.rd] stays 0)" has no assignment, and R25 has it that Writeback "leaves it 0".
The spec does not say what holds there when the bit is already 1 (an older writer's release behind R272's hole, then two adjacent
writers); not writing it is DEDUCED, log entry 12. -/
def scoreboardRelease (rd : Int) (r : Nat) (s : State) : State :=
  if sameDestinationBehind rd s then s else s.setValid r true

/-- Writeback's register commit (R130) and the release. -/
def commit (rd : Int) (s : State) : Result :=
  withDest rd s fun r => .next (scoreboardRelease rd r (s.writeReg r s.own.buffer))

/-! ### Data memory -/

/-- What the cell with index `k` holds; an unlisted cell reads 0 (R54, decision D5). -/
def Memory.read : Memory → Nat → Int
  | [], _ => 0
  | (k, v) :: rest, a => if a = k then v else Memory.read rest a

/-- Writes one cell and keeps the canonical form: writing 0 removes the entry. -/
def Memory.write : Memory → Nat → Int → Memory
  | [], a, v => if v = 0 then [] else [(a, v)]
  | (k, u) :: rest, a, v =>
    if a < k then (if v = 0 then (k, u) :: rest else (a, v) :: (k, u) :: rest)
    else if a = k then (if v = 0 then rest else (a, v) :: rest)
    else (k, u) :: Memory.write rest a v

/-- The cell an effective address names: `0 <= a < DMEM_SIZE`, with `a` signed (R61, decision D41). -/
def dataIndex? (cfg : Config) (a : Int) : Option Nat :=
  if 0 ≤ a ∧ a < cfg.dmemSize then some a.toNat else none

/-- `MemRead(a, 1)` (R64): goes on with the cell's word, or raises AddressOutOfRange. -/
def memRead (a : Int) (s : State) (k : Int → Result) : Result :=
  match dataIndex? s.cfg a with
  | some c => k (Memory.read s.dmem c)
  | none => raise .addressOutOfRange s.own.pc (.data a) s

/-- `MemWrite(a, 1, v)` (R65): writes the whole cell, or raises AddressOutOfRange. -/
def memWrite (a v : Int) (s : State) : Result :=
  match dataIndex? s.cfg a with
  | some c => .next { s with dmem := Memory.write s.dmem c v }
  | none => raise .addressOutOfRange s.own.pc (.data a) s

/-! ### Forwarding -/

/-- What a stage hands on: its latch if active, else a bubble with its stall mark (R105). -/
def Latch.forwarded (l : Latch) : Latch :=
  if l.active then l else bubble l.stalled

/-- Forwarding in Execute1, Execute2, Memory1 and Memory2 (R105); the other stages forward in their own way. -/
def forward (s : State) : State :=
  match s.stage with
  | .execute1 => s.setLatch .execute2 (s.latch .execute1).forwarded
  | .execute2 => s.setLatch .memory1 (s.latch .execute2).forwarded
  | .memory1 => s.setLatch .memory2 (s.latch .memory1).forwarded
  | .memory2 => s.setLatch .writeback (s.latch .memory2).forwarded
  | .fetch => s
  | .decode => s
  | .writeback => s

/-- The end of Decode (R107): a stalled instruction sends `bubble(1)`, another goes to Execute1. -/
def issue (s : State) : State :=
  let d := s.latch .decode
  s.setLatch .execute1 (if d.stalled then bubble true else d)

/-- The end of Fetch (R106): unless Decode is stalled, pc advances by W and `L[DRF] <- L[F]`. -/
def handToDecode (s : State) : State :=
  if (s.latch .decode).stalled then s
  else { s.setLatch .decode (s.latch .fetch) with pc := wrap s.cfg.xlen (s.pc + s.cfg.width) }

/-- The completion count (R134). -/
def countRetirement (counts : Bool) (s : State) : State :=
  if counts then { s with completed := s.completed + 1 } else s

/-- The flush (R122): `L[F]`, `L[DRF]`, `L[EX1]`, `L[EX2]` become bubbles, a pending jump redirect is cancelled, and nothing
else is written (decisions D15, D18, D19, D34). -/
def flush (s : State) : State :=
  { s with
    latches := { s.latches with f := bubble false, drf := bubble false, ex1 := bubble false, ex2 := bubble false }
    jmpPending := false
    flushedNow := true }

/-! ### The shape of a meaning -/

/-- What the running stage procedure does with an active instruction: its action for that stage, then the stage's generic end
(R105, R106, R107, R126). A stage an instruction's rule does not name has no action ("An opcode whose rule gives no action for a
stage does nothing there"). `counts` says whether the instruction's retirement is counted (R134). -/
def perform (s : State) (decode : State → Result)
    (execute1 : State → Result := Host.Outcome.next) (execute2 : State → Result := Host.Outcome.next)
    (memory1 : State → Result := Host.Outcome.next) (memory2 : State → Result := Host.Outcome.next)
    (writeback : State → Result := Host.Outcome.next) (counts : Bool := true) : Result :=
  match s.stage with
  | .fetch => .next (handToDecode s)
  | .decode => thenRun (decode s) fun s => .next (issue s)
  | .execute1 => thenRun (execute1 s) fun s => .next (forward s)
  | .execute2 => thenRun (execute2 s) fun s => .next (forward s)
  | .memory1 => thenRun (memory1 s) fun s => .next (forward s)
  | .memory2 => thenRun (memory2 s) fun s => .next (forward s)
  | .writeback => thenRun (writeback s) fun s => .next (countRetirement counts s)

/-- Two actions of one stage, one after the other. -/
def andAlso (f g : State → Result) (s : State) : Result :=
  thenRun (f s) g

/-- Sets `buffer` of the running stage's latch. -/
def setBuffer (v : Int) (s : State) : State :=
  s.setOwn { s.own with buffer := v }

/-- Sets `mem_address` of the running stage's latch. -/
def setMemAddress (v : Int) (s : State) : State :=
  s.setOwn { s.own with memAddress := v }

end Sys2Proof.Machine
end

