-- ==== Sys2Proof/Machine/Flags.lean ====
section
/-! DEFINITION. The one flag, Z (R30): its computation by the flag producers (R132) and its clearing by the branches
(R121, R210, R211). No other instruction writes it. -/

namespace Sys2Proof.Machine

/-- Z of a committed value (R132): 1 exactly when the wrapped result is 0. -/
def zeroFlag (v : Int) : Bool := decide (v = 0)

/-- Writeback of a flag producer (R126, R130, R131, R132): commit, Z, release. -/
def commitWithFlag (rd : Int) (s : State) : Result :=
  thenRun (commit rd s) fun t => .next { t with z := zeroFlag s.own.buffer }

/-- `Z <- 0`. -/
def clearZ (s : State) : State := { s with z := false }

end Sys2Proof.Machine
end

