-- ==== Sys2Proof/Machine/Operands.lean ====
section
/-! DEFINITION. Operand forms: the scoreboard gate and operand read of Decode (R108), the two addressing modes (R189), branch
and jump targets (R210, R212, decision D37). -/

namespace Sys2Proof.Machine

/-- The value fields of a latch that Decode fills (R40). -/
inductive ValueSlot where
  | rs1 | rs2 | rs3
  deriving DecidableEq, Repr

/-- Writes one value field of a latch. -/
def Latch.setValue (l : Latch) (slot : ValueSlot) (v : Int) : Latch :=
  match slot with
  | .rs1 => { l with rs1Value := v }
  | .rs2 => { l with rs2Value := v }
  | .rs3 => { l with rs3Value := v }

/-- Reads the sources into their value fields. -/
def readSources (s : State) (l : Latch) : List (ValueSlot × Nat) → Latch
  | [] => l
  | (slot, r) :: rest => readSources s (l.setValue slot (s.readReg r)) rest

/-- The scoreboard gate (R108): if some source is invalid, `d.stalled <- 1` and nothing is read; else every source is read
into its value field and `d.stalled <- 0`. -/
def gateAndRead (srcs : List (ValueSlot × Nat)) (s : State) : State :=
  let d := s.latch .decode
  if srcs.all fun p => s.isValid p.2 then
    s.setLatch .decode { readSources s d srcs with stalled := false }
  else
    s.setLatch .decode { d with stalled := true }

/-- `d.stalled <- 0`: the Decode action of an opcode that never stalls. -/
def neverStalls (s : State) : State :=
  s.setLatch .decode { s.latch .decode with stalled := false }

/-- Decode of an instruction with fields rd and rs1 whose source is rs1 (format RI of R83). -/
def decodeRI (rd rs1 : Int) (s : State) : Result :=
  checkField .rd rd s fun _ => checkField .rs1 rs1 s fun a => .next (gateAndRead [(.rs1, a)] s)

/-- Decode of an instruction with fields rd, rs1 and rs2 whose sources are rs1 and rs2 (format R3 of R83). -/
def decodeR3 (rd rs1 rs2 : Int) (s : State) : Result :=
  checkField .rd rd s fun _ => checkField .rs1 rs1 s fun a => checkField .rs2 rs2 s fun b =>
    .next (gateAndRead [(.rs1, a), (.rs2, b)] s)

/-- Base plus literal offset, or base plus index register (R189): a wrapping sum of XLEN = `n` bits, not scaled. -/
def effectiveAddress (n : Nat) (base offset : Int) : Int := wrap n (base + offset)

/-- A bitwise operation on the XLEN = `n` bits of two words (R7: "`&`, `|` and `^`"). -/
def bitwise (n : Nat) (f : BitVec n → BitVec n → BitVec n) (a b : Int) : Int :=
  (f (.ofInt n a) (.ofInt n b)).toInt

/-- `align(v)` (R7, decision D37): `v & ~(W-1)` on the XLEN bits. -/
def align (c : Config) (v : Int) : Int :=
  bitwise c.xlen (fun a b => a &&& ~~~b) v (c.width - 1)

/-- A branch's target (R210, decision D11): its own pc plus the offset, aligned down. -/
def branchTarget (c : Config) (pc imm : Int) : Int := align c (wrap c.xlen (pc + imm))

/-- A jump's target (R212): the base plus the offset, aligned down. -/
def jumpTarget (c : Config) (base imm : Int) : Int := align c (wrap c.xlen (base + imm))

end Sys2Proof.Machine
end

