-- ==== Sys2Proof/Machine/Arithmetic.lean ====
section
/-! DEFINITION. The arithmetic instructions (R159 to R165). -/

namespace Sys2Proof.Machine

/-- Execute1 of an instruction whose result is computed there: the reservation (R113), then `e.buffer <- v`. -/
def executeResult (rd : Int) (v : State → Int) (s : State) : Result :=
  andAlso (reserve rd) (fun s => .next (setBuffer (v s) s)) s

/-- MOVC (R160): `e.buffer <- e.imm`; the one-cycle hold has no effect (decision D17). -/
def execMovc (rd : Int) (imm : Int) (s : State) : Result :=
  perform s
    (decode := fun s => checkField .rd rd s fun _ => .next (neverStalls s))
    (execute1 := executeResult rd fun _ => imm)
    (writeback := commit rd)

/-- ADD (R161). -/
def execAdd (rd rs1 rs2 : Int) (s : State) : Result :=
  perform s
    (decode := decodeR3 rd rs1 rs2)
    (execute1 := executeResult rd fun s => wrap s.cfg.xlen (s.own.rs1Value + s.own.rs2Value))
    (writeback := commitWithFlag rd)

/-- ADDL (R162). -/
def execAddl (rd rs1 : Int) (imm : Int) (s : State) : Result :=
  perform s
    (decode := decodeRI rd rs1)
    (execute1 := executeResult rd fun s => wrap s.cfg.xlen (s.own.rs1Value + imm))
    (writeback := commitWithFlag rd)

/-- SUB (R163): rs1 is the minuend, rs2 the subtrahend. -/
def execSub (rd rs1 rs2 : Int) (s : State) : Result :=
  perform s
    (decode := decodeR3 rd rs1 rs2)
    (execute1 := executeResult rd fun s => wrap s.cfg.xlen (s.own.rs1Value - s.own.rs2Value))
    (writeback := commitWithFlag rd)

/-- SUBL (R164). -/
def execSubl (rd rs1 : Int) (imm : Int) (s : State) : Result :=
  perform s
    (decode := decodeRI rd rs1)
    (execute1 := executeResult rd fun s => wrap s.cfg.xlen (s.own.rs1Value - imm))
    (writeback := commitWithFlag rd)

/-- MUL (R165): the low XLEN bits of the product. -/
def execMul (rd rs1 rs2 : Int) (s : State) : Result :=
  perform s
    (decode := decodeR3 rd rs1 rs2)
    (execute1 := executeResult rd fun s => wrap s.cfg.xlen (s.own.rs1Value * s.own.rs2Value))
    (writeback := commitWithFlag rd)

end Sys2Proof.Machine
end

