-- ==== Sys2Proof/Machine/Control.lean ====
section
/-! DEFINITION. The control instructions (R209 to R215). -/

namespace Sys2Proof.Machine

/-- The branch-stall budget, Decode of BZ and BNZ (R209); `L[EX1]` is read as Execute1 left it this tick. -/
def branchBudget (s : State) : State :=
  let d := s.latch .decode
  if s.cfg.brStallSet.contains (s.latch .execute1).opcode && decide (s.bstall < s.cfg.bstallMax) then
    { s.setLatch .decode { d with stalled := true } with bstall := s.bstall + 1 }
  else
    s.setLatch .decode { d with stalled := false }

/-- Execute2 of a branch whose test holds: stage the target (R210, R211, decision D12). -/
def stageTarget (imm : Int) (s : State) : State :=
  { s with brTarget := branchTarget s.cfg s.own.pc imm, brPending := true }

/-- `BranchCommit()` (R121): `pc <- br_target`, `Z <- 0`, flush, `br_pending <- 0`. -/
def branchCommit (s : State) : State :=
  { flush (clearZ { s with pc := s.brTarget }) with brPending := false }

/-- Memory1 of a branch (R121, R210, R211): commit exactly when Execute2 staged a target. -/
def resolveBranch (s : State) : Result :=
  .next (if s.brPending then branchCommit s else s)

/-- Writeback of a branch (R210, R211): `Z <- 0; bstall <- 0`. -/
def retireBranch (s : State) : Result :=
  .next { clearZ s with bstall := 0 }

/-- BZ (R210). -/
def execBz (imm : Int) (s : State) : Result :=
  perform s
    (decode := fun s => .next (branchBudget s))
    (execute2 := fun s => .next (if s.z then stageTarget imm s else s))
    (memory1 := resolveBranch)
    (writeback := retireBranch)

/-- BNZ (R211). -/
def execBnz (imm : Int) (s : State) : Result :=
  perform s
    (decode := fun s => .next (branchBudget s))
    (execute2 := fun s => .next (if s.z then s else stageTarget imm s))
    (memory1 := resolveBranch)
    (writeback := retireBranch)

/-- Execute1 of JUMP (R212): redirect pc, discard the instruction in Decode, queue the deferred redirect. -/
def jumpRedirect (imm : Int) (s : State) : State :=
  let t := jumpTarget s.cfg s.own.rs1Value imm
  let next := wrap s.cfg.xlen (t + s.cfg.width)
  let s := s.setLatch .decode { s.latch .decode with busy := true }
  let s := { s with pc := t, jmpAddr := next, jmpPending := true }
  s.setOwn { s.own with nextAddr := next }

/-- JUMP (R212): the base is the register of the format's source field, `rd` by default (R215, I7), carried in `rs1_value`
(decision D13). -/
def execJump (base : Int) (imm : Int) (s : State) : Result :=
  perform s
    (decode := fun s => checkField s.cfg.jumpBase base s fun a => .next (gateAndRead [(.rs1, a)] s))
    (execute1 := fun s => .next (jumpRedirect imm s))
    (execute2 := fun s => .next (s.setOwn { s.own with stalled := true }))

/-- Decode of HALT (R214): freeze Fetch, raise `halt_flag`, do not stall. -/
def freezeFetch (s : State) : State :=
  let s := s.setLatch .fetch { s.latch .fetch with busy := true }
  neverStalls { s with haltFlag := true }

/-- HALT (R214): at Writeback `program_size <- completed + 1`, before the count. -/
def execHalt (s : State) : Result :=
  perform s
    (decode := fun s => .next (freezeFetch s))
    (writeback := fun s => .next { s with programSize := s.completed + 1 })

/-- NOP (R213): counted at Writeback when NOP_COUNTS (R134, decision D8). -/
def execNop (s : State) : Result :=
  perform s
    (decode := fun s => .next (neverStalls s))
    (counts := s.cfg.nopCounts)

end Sys2Proof.Machine
end

