-- ==== Sys2Proof/Machine/LoadStore.lean ====
section
/-! DEFINITION. The load and store instructions (R189 to R193). -/

namespace Sys2Proof.Machine

/-- Execute1 of a load: the reservation (R113), then `e.mem_address <- ea`. -/
def executeLoadAddress (rd : Int) (ea : State → Int) (s : State) : Result :=
  andAlso (reserve rd) (fun s => .next (setMemAddress (ea s) s)) s

/-- Memory2 of a load (R190, R191): `m.buffer <- MemRead(m.mem_address, 1)`. -/
def loadCell (s : State) : Result :=
  memRead s.own.memAddress s fun v => .next (setBuffer v s)

/-- Memory1 of a store (R192, R193): `MemWrite(m.mem_address, 1, m.rs1_value)`. -/
def storeCell (s : State) : Result :=
  memWrite s.own.memAddress s.own.rs1Value s

/-- LOAD (R190): base rs1 plus literal. -/
def execLoad (rd rs1 : Int) (imm : Int) (s : State) : Result :=
  perform s
    (decode := decodeRI rd rs1)
    (execute1 := executeLoadAddress rd fun s => effectiveAddress s.cfg.xlen s.own.rs1Value imm)
    (memory2 := loadCell)
    (writeback := commit rd)

/-- LDR (R191): base rs1 plus index rs2. -/
def execLdr (rd rs1 rs2 : Int) (s : State) : Result :=
  perform s
    (decode := decodeR3 rd rs1 rs2)
    (execute1 := executeLoadAddress rd fun s => effectiveAddress s.cfg.xlen s.own.rs1Value s.own.rs2Value)
    (memory2 := loadCell)
    (writeback := commit rd)

/-- STORE (R192): data rs1, base rs2 plus literal. -/
def execStore (rs1 rs2 : Int) (imm : Int) (s : State) : Result :=
  perform s
    (decode := fun s => checkField .rs1 rs1 s fun a => checkField .rs2 rs2 s fun b =>
      .next (gateAndRead [(.rs1, a), (.rs2, b)] s))
    (execute1 := fun s => .next (setMemAddress (effectiveAddress s.cfg.xlen s.own.rs2Value imm) s))
    (memory1 := storeCell)

/-- STR (R193): data rs1, base rs2 plus index rs3. -/
def execStr (rs1 rs2 rs3 : Int) (s : State) : Result :=
  perform s
    (decode := fun s => checkField .rs1 rs1 s fun a => checkField .rs2 rs2 s fun b => checkField .rs3 rs3 s fun c =>
      .next (gateAndRead [(.rs1, a), (.rs2, b), (.rs3, c)] s))
    (execute1 := fun s => .next (setMemAddress (effectiveAddress s.cfg.xlen s.own.rs2Value s.own.rs3Value) s))
    (memory1 := storeCell)

end Sys2Proof.Machine
end

