-- ==== Sys2Proof/Machine/Logical.lean ====
section
/-! DEFINITION. The logical instructions (R179 to R182): the destination is reserved in Execute1 and the result computed in
Execute2; Z is not written. -/

namespace Sys2Proof.Machine

/-- AND (R180). -/
def execAnd (rd rs1 rs2 : Int) (s : State) : Result :=
  perform s
    (decode := decodeR3 rd rs1 rs2)
    (execute1 := reserve rd)
    (execute2 := fun s => .next (setBuffer (bitwise s.cfg.xlen (fun a b => a &&& b) s.own.rs1Value s.own.rs2Value) s))
    (writeback := commit rd)

/-- OR (R181). -/
def execOr (rd rs1 rs2 : Int) (s : State) : Result :=
  perform s
    (decode := decodeR3 rd rs1 rs2)
    (execute1 := reserve rd)
    (execute2 := fun s => .next (setBuffer (bitwise s.cfg.xlen (fun a b => a ||| b) s.own.rs1Value s.own.rs2Value) s))
    (writeback := commit rd)

/-- XOR (R182). -/
def execXor (rd rs1 rs2 : Int) (s : State) : Result :=
  perform s
    (decode := decodeR3 rd rs1 rs2)
    (execute1 := reserve rd)
    (execute2 := fun s => .next (setBuffer (bitwise s.cfg.xlen (fun a b => a ^^^ b) s.own.rs1Value s.own.rs2Value) s))
    (writeback := commit rd)

end Sys2Proof.Machine
end

