-- ==== Sys2Proof/Machine/Stages.lean ====
section
/-! DEFINITION. The seven stage procedures (R106, R107, R111, R114, R118, R124, R126) around `exec`, and the tick (R100, R101). -/

namespace Sys2Proof.Machine

/-- Runs the instruction in the running stage's latch. An `UNKNOWN` opcode has no action and takes the stage's generic end;
Decode never gets here with one (R232, log entry 10). -/
def runOwn (s : State) : Result :=
  match s.own.instr? s.cfg.jumpBase with
  | some i => exec i s
  | none => perform s (decode := fun s => .next (neverStalls s))

/-- Execute1, Execute2, Memory1, Memory2 and Writeback: act only on an active latch (R104); else forward a bubble (R105). -/
def runIfActive (s : State) : Result :=
  if s.own.active then runOwn s else .next (forward s)

/-- Decode (R107): a busy latch or a bubble is not decoded (decision D38); an unknown opcode faults (R232). -/
def decodeProcedure (s : State) : Result :=
  let d := s.latch .decode
  if d.busy || d.opcode == .bubble then
    .next ((s.setLatch .decode { d with stalled := false }).setLatch .execute1 (bubble false))
  else
    match d.opcode with
    | .unknown t => raise .unrecognizedOpcode d.pc (.opcode t) s
    | .bubble => runOwn s
    | .op _ => runOwn s

/-- The deferred jump redirect, the first thing Execute2 does (R117). -/
def applyRedirect (s : State) : State :=
  if s.jmpPending then { s with pc := s.jmpAddr, jmpPending := false } else s

/-- The code record at the program counter, if the program has one (R27, R106): index `(pc - CODE_BASE) / W` on signed readings. -/
def codeAt? (s : State) : Option Record :=
  let k := s.pc - s.cfg.codeBase
  if 0 ≤ k then s.cfg.code[k.toNat / s.cfg.width]? else none

/-- Whether Fetch is suppressed (R106). -/
def fetchHeld (s : State) : Bool :=
  (s.latch .fetch).busy || (s.latch .fetch).stalled || (s.cfg.flushFetchHold && s.flushedNow)

/-- Fetch (R106). -/
def fetchProcedure (s : State) : Result :=
  if fetchHeld s then
    .next (if (s.latch .decode).stalled then s else s.setLatch .decode (bubble false))
  else
    match codeAt? s with
    | some r => runOwn (s.setLatch .fetch (fetchedLatch s.pc r))
    | none =>
      match s.cfg.fetchOob with
      | .fault => raise .addressOutOfRange s.pc (.code s.pc) s
      | .bubble => .next (handToDecode (s.setLatch .fetch { bubble false with pc := s.pc }))

/-- The stage procedure `S` (R101). -/
def runStage (S : Stage) (s : State) : Result :=
  let s := { s with stage := S }
  match S with
  | .fetch => fetchProcedure s
  | .decode => decodeProcedure s
  | .execute1 => runIfActive s
  | .execute2 => runIfActive (applyRedirect s)
  | .memory1 => runIfActive s
  | .memory2 => runIfActive s
  | .writeback => runIfActive s

/-- The six procedures that run before Fetch, in the order of R101; a raise ends the tick (R231). -/
def beforeFetch (s : State) : Result :=
  thenRun (runStage .writeback s) fun s =>
  thenRun (runStage .memory2 s) fun s =>
  thenRun (runStage .memory1 s) fun s =>
  thenRun (runStage .execute2 s) fun s =>
  thenRun (runStage .execute1 s) fun s =>
  runStage .decode s

/-- The end of a completed tick (R100). -/
def endTick (s : State) : Result :=
  .next { s with clock := s.clock + 1 }

/-- One call of `Step` while `status = Running` (R100): the completion test, the budget test, then the seven procedures. -/
def tick (s : State) : Result :=
  if s.completed = s.programSize then .next { s with status := .completed }
  else if 0 < s.cfg.cycleBudget ∧ s.cfg.cycleBudget ≤ s.clock then .next { s with status := .budgetExhausted }
  else
    thenRun (beforeFetch { s with flushedNow := false }) fun s =>
    thenRun (runStage .fetch s) endTick

/-- A run that has ended does not change any more (R38, R231, R244; log entry 3). -/
def stepOf (s : State) : Result :=
  match s.status with
  | .running => tick s
  | .completed => .next s
  | .budgetExhausted => .next s
  | .faulted _ _ _ _ => .next s

/-- The pc from which the coming tick fetches: the pc after its first six procedures (R103). -/
def fetchPc (s : State) : Int :=
  match beforeFetch { s with flushedNow := false } with
  | .next t => t.pc
  | .fault _ => s.pc
  | .refused _ => s.pc

/-- The code with `r` at index `k`; indices that had no record before it get NOP (log entry 6). -/
def placeRecord (code : List Record) (k : Nat) (r : Record) : List Record :=
  if k < code.length then code.set k r
  else code ++ List.replicate (k - code.length) (encode .rd .nop) ++ [r]

/-- Loads the record `r` where the coming tick fetches (log entry 6): the code has it at that pc, the run goes on, Fetch is not
frozen, the budget is not spent, and the program's length is such that the driver runs the tick. -/
def placeAtFetch (s : State) (r : Record) : State :=
  let s := { s.setLatch .fetch { s.latch .fetch with busy := false, stalled := false } with
    status := .running
    programSize := max s.programSize (s.completed + 1)
    cfg := { s.cfg with cycleBudget := if s.cfg.cycleBudget ≤ s.clock then 0 else s.cfg.cycleBudget } }
  let k := fetchPc s - s.cfg.codeBase
  if 0 ≤ k then
    { s with cfg := { s.cfg with code := placeRecord s.cfg.code (k.toNat / s.cfg.width) r } }
  else s

end Sys2Proof.Machine
end

