-- ==== Sys2Proof/Machine/Step.lean ====
section
/-! DEFINITION. The step, one tick (R5, R100), and the placing of one instruction where the next step fetches. -/

namespace Sys2Proof.Machine

/-- One step: one call of the driver's `Step` (R100). -/
def step (s : State) : Host.Outcome State Fault Refusal := stepOf s

/-- `s` with the record of the opcode table's number `w` where the next step fetches (log entry 6). -/
def State.withFetchWord (s : State) (nbits w : Nat) : State :=
  placeAtFetch s (recordOfTableWord nbits w)

end Sys2Proof.Machine
end

