-- ==== Sys2Proof/Safety.lean ====
section
/-! DEFINITION. What the statements call a good state: the invariants of R29, R34, R141, R143, R84 and the canonical form of data
memory, and words of XLEN bits (R6, R7). Nothing here is read by the machine. -/

namespace Sys2Proof.Machine

/-- An instruction past Decode, or a bubble (R141): neither busy nor stalled, its opcode known and every register field it uses
in range, since Decode has checked them (R107, R232, R233). -/
def Latch.inFlightOk (c : Config) (l : Latch) : Bool :=
  match l.opcode with
  | .bubble => true
  | .unknown _ => false
  | .op o => !l.busy && !l.stalled && (decodeFields c.jumpBase o l.rd l.rs1 l.rs2 l.rs3 l.imm).fieldsInRange c

/-- No JUMP (R212: a JUMP turns itself into a bubble in Execute2). -/
def Latch.noJump (l : Latch) : Bool := l.opcode != .op .jump

/-- What holds in every state of a run: at reset, and after every step. -/
structure State.Inv (s : State) : Prop where
  /-- The parameters meet the constraints of R6. -/
  cfgOk : s.cfg.wellFormed = true
  /-- Every value written to pc is a multiple of W (R29). -/
  pcAligned : alignedTo s.cfg.width s.pc = true
  brTargetAligned : alignedTo s.cfg.width s.brTarget = true
  jmpAddrAligned : alignedTo s.cfg.width s.jmpAddr = true
  /-- NREG registers and NREG scoreboard bits (R21, R24). -/
  registerCount : s.x.length = s.cfg.nreg
  validCount : s.valid.length = s.cfg.nreg
  /-- `bstall` is in 0..BSTALL_MAX (R34). -/
  bstallInBudget : s.bstall ≤ s.cfg.bstallMax
  /-- Data memory has its canonical form, and lists only cells that exist (R47, R61). -/
  memCanonical : Memory.wf s.dmem = true
  memInRange : ∀ p ∈ s.dmem, p.1 < s.cfg.dmemSize
  /-- `L[F].stalled` is always 0 (R141). -/
  fetchNotStalled : (s.latch .fetch).stalled = false
  /-- Execute1 to Writeback hold bubbles and checked instructions (R141). -/
  ex1Ok : (s.latch .execute1).inFlightOk s.cfg = true
  ex2Ok : (s.latch .execute2).inFlightOk s.cfg = true
  mem1Ok : (s.latch .memory1).inFlightOk s.cfg = true
  mem2Ok : (s.latch .memory2).inFlightOk s.cfg = true
  wbOk : (s.latch .writeback).inFlightOk s.cfg = true
  /-- A JUMP never gets past Execute2, so it never retires (R134, R212). -/
  mem1NoJump : (s.latch .memory1).noJump = true
  mem2NoJump : (s.latch .memory2).noJump = true
  wbNoJump : (s.latch .writeback).noJump = true

/-- Every value field of a latch that R40 calls a word is one of `n` bits. -/
def Latch.wordsFit (n : Nat) (l : Latch) : Bool :=
  [l.pc, l.imm, l.rs1Value, l.rs2Value, l.rs3Value, l.buffer, l.memAddress, l.nextAddr].all (isWord n)

/-- Every value the spec calls a word (R7: registers, cells, immediates, addresses and the pc) is a word of XLEN bits. -/
structure State.WordsFit (s : State) : Prop where
  parameters : s.cfg.wordsFit = true
  registers : ∀ v ∈ s.x, isWord s.cfg.xlen v = true
  cells : ∀ p ∈ s.dmem, isWord s.cfg.xlen p.2 = true
  pc : isWord s.cfg.xlen s.pc = true
  brTarget : isWord s.cfg.xlen s.brTarget = true
  jmpAddr : isWord s.cfg.xlen s.jmpAddr = true
  latches : ∀ S, (s.latch S).wordsFit s.cfg.xlen = true

/-- While the run goes on: a pending jump redirect names the value pc already holds (R143); a Fetch frozen by HALT has handed on
nothing that Decode could issue, and no JUMP is in Execute1 then (R143, R214). -/
structure State.RedirectInv (s : State) : Prop where
  pendingIsPc : s.jmpPending = true → s.jmpAddr = s.pc
  frozenDecodesNothing : (s.latch .fetch).busy = true → (s.latch .decode).opcode = .bubble
  frozenNoJump : (s.latch .fetch).busy = true → (s.latch .execute1).noJump = true
  fetchNotStalled : (s.latch .fetch).stalled = false

/-! ### The vocabulary of the statements -/

/-- The stage procedure `S` is running, and no fault has been raised. -/
abbrev State.runs (s : State) (S : Stage) : Prop := s.stage = S ∧ s.status = .running

/-- An instruction with latch value `l` leaves stage `S`: both `L[S]` and the next latch hold `l` (R102). -/
def State.advanced (s : State) (S : Stage) (l : Latch) : State :=
  match S with
  | .fetch => { s with latches := { s.latches with f := l, drf := l } }
  | .decode => { s with latches := { s.latches with drf := l, ex1 := l } }
  | .execute1 => { s with latches := { s.latches with ex1 := l, ex2 := l } }
  | .execute2 => { s with latches := { s.latches with ex2 := l, mem1 := l } }
  | .memory1 => { s with latches := { s.latches with mem1 := l, mem2 := l } }
  | .memory2 => { s with latches := { s.latches with mem2 := l, wb := l } }
  | .writeback => { s with latches := { s.latches with wb := l } }

/-- Decode holds its instruction: it reports `stalled = 1` and sends `bubble(1)` (R107, R108). -/
def State.held (s : State) : State :=
  { s with latches := { s.latches with drf := { s.latches.drf with stalled := true }, ex1 := bubble true } }

/-- Memory2 holds an active register producer whose destination is register `r` too (R131). -/
def State.sameWriterBehind (s : State) (r : Nat) : Bool :=
  s.latches.mem2.active && s.latches.mem2.holdsProducer && s.latches.mem2.rd == (r : Int)

/-- Writeback of a register producer of `r` (R130, R131, R134), with Z afterwards `z`. The scoreboard bit is not
written when Memory2 holds an active producer of the same register (log entry 12). -/
def State.committed (s : State) (r : Nat) (z : Bool) : State :=
  { s with
    x := s.x.set r s.latches.wb.buffer
    valid := if s.sameWriterBehind r then s.valid else s.valid.set r true
    z := z
    completed := s.completed + 1 }

/-- A raise in the running stage for the instruction at `pc`: the status, and nothing else (R231). -/
def State.raised (s : State) (k : FaultKind) (pc : Int) (info : FaultInfo) : State :=
  { s with status := .faulted k s.stage pc info }

/-- The tag of the instruction's opcode (R85). -/
def hasTag (i : Instr) (tag : BitVec 8) : Prop :=
  (∀ ji, (encode ji i).opcode = .known i.opcode) ∧ opcodeOfTag tag = some i.opcode

/-- In Decode, the first used register field outside 0..NREG-1, in the order rd, rs1, rs2, rs3, raises the fault and nothing else
happens (R107, R233). -/
def faultsOnFields (i : Instr) : Prop :=
  ∀ (f : Field) (v : Int) (s : State), s.runs .decode → 
    (i.registerFields s.cfg.jumpBase).find? (fun p => !inRange s.cfg.nreg p.2) = some (f, v) →
    exec i s = .next (s.raised .addressOutOfRange s.latches.drf.pc (.register f v))

/-- In stage `S` the instruction does nothing but move on (R105: "An opcode whose rule gives no action for a stage does nothing
there"). -/
def forwardsOnly (i : Instr) (S : Stage) : Prop :=
  ∀ s : State, s.runs S → (s.latch S).active = true → exec i s = .next (s.advanced S (s.latch S))

/-- In Decode, with every field in range and sources `srcs`: a reserved source holds the instruction; else its source values are
read and it leaves Decode (R108). `read` fills the value fields. -/
def gatedOn (i : Instr) (srcs : List Nat) (read : State → Latch → Latch) : Prop :=
  ∀ s : State, s.runs .decode → i.fieldsInRange s.cfg = true →
    ((∃ r ∈ srcs, s.isValid r = false) → exec i s = .next s.held) ∧
    ((∀ r ∈ srcs, s.isValid r = true) →
      exec i s = .next (s.advanced .decode { read s s.latches.drf with stalled := false }))

/-- In Decode, for an instruction with no source register and every field in range: it leaves Decode and cannot be held there. -/
def leavesDecode (i : Instr) : Prop :=
  ∀ s : State, s.runs .decode → i.fieldsInRange s.cfg = true →
    exec i s = .next (s.advanced .decode { s.latches.drf with stalled := false })

/-- Decode of a branch (R209): it stalls, spending budget, while the opcode in Execute1 is in BR_STALL_SET and budget is left;
else it leaves Decode. -/
def followsBudget (i : Instr) : Prop :=
  ∀ s : State, s.runs .decode →
    (s.latches.ex1.opcode ∈ s.cfg.brStallSet → s.bstall < s.cfg.bstallMax →
      exec i s = .next { s.held with bstall := s.bstall + 1 }) ∧
    (¬ (s.latches.ex1.opcode ∈ s.cfg.brStallSet ∧ s.bstall < s.cfg.bstallMax) →
      exec i s = .next (s.advanced .decode { s.latches.drf with stalled := false }))

/-- A branch's or a jump's target (R7, R210, R212): `(base + imm) & ~(W-1)` on the XLEN bits. -/
def State.target (s : State) (base imm : Int) : Int :=
  (BitVec.ofInt s.cfg.xlen (base + imm) &&& ~~~BitVec.ofInt s.cfg.xlen (s.cfg.width - 1)).toInt

/-- In Execute1: the destination is reserved (R113) and the latch becomes `e`. -/
def reservesIn1 (i : Instr) (rd : Nat) (e : State → Latch → Latch) : Prop :=
  ∀ s : State, s.runs .execute1 → rd < s.cfg.nreg → s.latches.ex1.active = true →
    exec i s = .next ({ s with valid := s.valid.set rd false }.advanced .execute1 (e s s.latches.ex1))

/-- In Writeback: commit, release, count; Z as `z` says from the old Z and the committed value. With a producer of the same register
behind, R131 says that the bit "stays 0", so it is 0 here; what holds when it is 1 there is the model's reading (log entry 12) and in
no statement that uses this one. -/
def commitsIn (i : Instr) (rd : Nat) (z : Bool → Int → Bool) : Prop :=
  ∀ s : State, s.runs .writeback → rd < s.cfg.nreg → (s.sameWriterBehind rd = true → s.isValid rd = false) →
    exec i s = .next (s.committed rd (z s.z s.latches.wb.buffer))

/-- In Writeback: nothing but the count (R134). -/
def onlyCounted (i : Instr) : Prop :=
  ∀ s : State, s.runs .writeback → exec i s = .next { s with completed := s.completed + 1 }

/-- The state with another RUN_MODE. -/
def State.withRunMode (s : State) (m : RunMode) : State :=
  { s with cfg := { s.cfg with runMode := m } }

/-- The driver runs a tick in this state (R100): the run goes on, the count is not reached, the budget is not spent. -/
abbrev State.ticks (s : State) : Prop :=
  s.status = .running ∧ s.completed ≠ s.programSize ∧ ¬ (0 < s.cfg.cycleBudget ∧ s.cfg.cycleBudget ≤ s.clock)

end Sys2Proof.Machine

namespace Sys2Proof

/-- The register fields Decode gates and reads (R83: `sources`). -/
def Instr.sourceFields : Instr → List Int
  | .movc _ _ => []
  | .add _ rs1 rs2 => [rs1, rs2]
  | .addl _ rs1 _ => [rs1]
  | .sub _ rs1 rs2 => [rs1, rs2]
  | .subl _ rs1 _ => [rs1]
  | .mul _ rs1 rs2 => [rs1, rs2]
  | .and _ rs1 rs2 => [rs1, rs2]
  | .or _ rs1 rs2 => [rs1, rs2]
  | .xor _ rs1 rs2 => [rs1, rs2]
  | .load _ rs1 _ => [rs1]
  | .ldr _ rs1 rs2 => [rs1, rs2]
  | .store rs1 rs2 _ => [rs1, rs2]
  | .str rs1 rs2 rs3 => [rs1, rs2, rs3]
  | .bz _ => []
  | .bnz _ => []
  | .jump base _ => [base]
  | .halt => []
  | .nop => []

/-- The destination field: the register reserved in Execute1 and written in Writeback (R83: `dest`). -/
def Instr.destField? : Instr → Option Int
  | .movc rd _ => some rd
  | .add rd _ _ => some rd
  | .addl rd _ _ => some rd
  | .sub rd _ _ => some rd
  | .subl rd _ _ => some rd
  | .mul rd _ _ => some rd
  | .and rd _ _ => some rd
  | .or rd _ _ => some rd
  | .xor rd _ _ => some rd
  | .load rd _ _ => some rd
  | .ldr rd _ _ => some rd
  | .store _ _ _ => none
  | .str _ _ _ => none
  | .bz _ => none
  | .bnz _ => none
  | .jump _ _ => none
  | .halt => none
  | .nop => none

/-- BZ or BNZ (R82). -/
def Instr.isBranch (i : Instr) : Bool := i.opcode == .bz || i.opcode == .bnz

/-- STORE or STR (R82). -/
def Instr.isStore (i : Instr) : Bool := i.opcode == .store || i.opcode == .str

/-- LOAD or LDR (R82). -/
def Instr.isLoad (i : Instr) : Bool := i.opcode == .load || i.opcode == .ldr

/-- AND, OR or XOR (R179). -/
def Instr.isLogical (i : Instr) : Bool := i.opcode == .and || i.opcode == .or || i.opcode == .xor

end Sys2Proof
end

