-- ==== Sys2Proof/Certificates/Slice0/Obligations.lean ====
section
/-! DEFINITION. The statements for the provers. Each docstring names the rule of spec/ it formalises. -/

open Sys2Proof Sys2Proof.Machine

/-! ### Reset -/

/-- R54, R55: construction puts every piece of state at the value of the reset table, whatever the parameters and the program.
The table's values that doc00 does not give are the spec's decisions D3, D5 and D36. -/
def Obligations.ConstructionGivesTheResetTable : Prop :=
  ∀ cfg : Config, let s := State.construct cfg
    s.x = List.replicate cfg.nreg 0 ∧ s.valid = List.replicate cfg.nreg true ∧
    s.dmem = cfg.dmemInit ∧ (cfg.dmemInit = [] → ∀ a, Memory.read s.dmem a = 0) ∧
    s.pc = cfg.codeBase ∧ s.z = false ∧ s.clock = 0 ∧ s.completed = 0 ∧ s.programSize = cfg.code.length ∧ s.bstall = 0 ∧
    s.brPending = false ∧ s.brTarget = 0 ∧ s.jmpPending = false ∧ s.jmpAddr = 0 ∧ s.haltFlag = false ∧
    s.flushedNow = false ∧ s.status = .running ∧ s.cfg = cfg ∧
    s.latches.f = bubble false ∧
    (∀ S, S ≠ .fetch → s.latch S = { bubble false with busy := true })

/-- R6: the defaults of the parameters, with no program loaded (log entry 6); XLEN, W, CODE_BASE, DMEM_SIZE and NREG are what log
entry 9 says of them. -/
def Obligations.DefaultsAreThoseOfTheParameterTable : Prop :=
  (let c := Config.default
   c.nreg = 32 ∧ c.xlen = 32 ∧ c.jumpBase = .rd ∧ c.width = 4 ∧ c.codeBase = 4000 ∧ c.dmemSize = 4096 ∧ c.dmemInit = [] ∧
    c.bstallMax = 4 ∧ c.nopCounts = true ∧
    c.flushFetchHold = false ∧ c.fetchOob = .bubble ∧ c.wellFormed = true ∧
    ∀ o : LatchOp, o ∈ c.brStallSet ↔
      o = .op .add ∨ o = .op .addl ∨ o = .op .sub ∨ o = .op .subl ∨ o = .op .mul ∨ o = .op .nop ∨ o = .bubble)

/-! ### The instructions: what each does in every stage -/

/-- R160 (MOVC). -/
def Obligations.MovcFollowsItsRule : Prop :=
  (∀ (rd : Int) (imm : Int), let i := Instr.movc rd imm; hasTag i 0x01 ∧ faultsOnFields i) ∧
  ∀ (rd : Nat) (imm : Int), let i := Instr.movc rd imm
    leavesDecode i ∧
    reservesIn1 i rd (fun _ e => { e with buffer := imm }) ∧
    forwardsOnly i .execute2 ∧ forwardsOnly i .memory1 ∧ forwardsOnly i .memory2 ∧
    commitsIn i rd (fun z _ => z)

/-- R161, R163, R165 (ADD, SUB, MUL). -/
def Obligations.RegisterArithmeticFollowsItsRules : Prop :=
  ∀ p ∈ [(Instr.add, (0x02 : BitVec 8), fun a b : Int => a + b), (Instr.sub, 0x04, fun a b => a - b),
         (Instr.mul, 0x06, fun a b => a * b)],
  (∀ rd a b : Int, let i := p.1 rd a b; hasTag i p.2.1 ∧ faultsOnFields i) ∧
  ∀ rd a b : Nat, let i := p.1 rd a b
    gatedOn i [a, b] (fun s l => { l with rs1Value := s.readReg a, rs2Value := s.readReg b }) ∧
    reservesIn1 i rd (fun s e => { e with buffer := wrap s.cfg.xlen (p.2.2 e.rs1Value e.rs2Value) }) ∧
    forwardsOnly i .execute2 ∧ forwardsOnly i .memory1 ∧ forwardsOnly i .memory2 ∧
    commitsIn i rd (fun _ v => decide (v = 0))

/-- R162, R164 (ADDL, SUBL). -/
def Obligations.LiteralArithmeticFollowsItsRules : Prop :=
  ∀ p ∈ [(Instr.addl, (0x03 : BitVec 8), fun a b : Int => a + b), (Instr.subl, 0x05, fun a b => a - b)],
  (∀ (rd a : Int) (imm : Int), let i := p.1 rd a imm; hasTag i p.2.1 ∧ faultsOnFields i) ∧
  ∀ (rd a : Nat) (imm : Int), let i := p.1 rd a imm
    gatedOn i [a] (fun s l => { l with rs1Value := s.readReg a }) ∧
    reservesIn1 i rd (fun s e => { e with buffer := wrap s.cfg.xlen (p.2.2 e.rs1Value imm) }) ∧
    forwardsOnly i .execute2 ∧ forwardsOnly i .memory1 ∧ forwardsOnly i .memory2 ∧
    commitsIn i rd (fun _ v => decide (v = 0))

/-- R180, R181, R182 (AND, OR, XOR): the result is computed in Execute2, and Z is not written. -/
def Obligations.LogicalFollowsItsRules : Prop :=
  ∀ p ∈ [(Instr.and, (0x07 : BitVec 8), fun (n : Nat) (a b : BitVec n) => a &&& b), (Instr.or, 0x08, fun _ a b => a ||| b),
         (Instr.xor, 0x09, fun _ a b => a ^^^ b)],
  (∀ rd a b : Int, let i := p.1 rd a b; hasTag i p.2.1 ∧ faultsOnFields i) ∧
  ∀ rd a b : Nat, let i := p.1 rd a b
    gatedOn i [a, b] (fun s l => { l with rs1Value := s.readReg a, rs2Value := s.readReg b }) ∧
    reservesIn1 i rd (fun _ e => e) ∧
    (∀ s : State, s.runs .execute2 → s.latches.ex2.active = true →
      let e := s.latches.ex2
      exec i s = .next (s.advanced .execute2
        { e with buffer := (p.2.2 s.cfg.xlen (.ofInt _ e.rs1Value) (.ofInt _ e.rs2Value)).toInt })) ∧
    forwardsOnly i .memory1 ∧ forwardsOnly i .memory2 ∧
    commitsIn i rd (fun z _ => z)

/-- Memory2 of a load (R64, R190, R191): an address in range is read, another faults and changes nothing but the status. -/
def Obligations.LoadsFollowTheirRules : Prop :=
  (∀ (rd a b : Int) (imm : Int), hasTag (.load rd a imm) 0x0A ∧ faultsOnFields (.load rd a imm) ∧
    hasTag (.ldr rd a b) 0x0B ∧ faultsOnFields (.ldr rd a b)) ∧
  ∀ (rd a b : Nat) (imm : Int),
    gatedOn (.load rd a imm) [a] (fun s l => { l with rs1Value := s.readReg a }) ∧
    gatedOn (.ldr rd a b) [a, b] (fun s l => { l with rs1Value := s.readReg a, rs2Value := s.readReg b }) ∧
    reservesIn1 (.load rd a imm) rd (fun s e => { e with memAddress := wrap s.cfg.xlen (e.rs1Value + imm) }) ∧
    reservesIn1 (.ldr rd a b) rd (fun s e => { e with memAddress := wrap s.cfg.xlen (e.rs1Value + e.rs2Value) }) ∧
    ∀ i ∈ [Instr.load rd a imm, Instr.ldr rd a b],
      forwardsOnly i .execute2 ∧ forwardsOnly i .memory1 ∧
      (∀ s : State, s.runs .memory2 → s.latches.mem2.active = true →
        (∀ c : Nat, s.latches.mem2.memAddress = (c : Int) → c < s.cfg.dmemSize →
          exec i s = .next (s.advanced .memory2 { s.latches.mem2 with buffer := Memory.read s.dmem c })) ∧
        (¬ (0 ≤ s.latches.mem2.memAddress ∧ s.latches.mem2.memAddress < (s.cfg.dmemSize : Int)) →
          exec i s = .next (s.raised .addressOutOfRange s.latches.mem2.pc (.data s.latches.mem2.memAddress)))) ∧
      commitsIn i rd (fun z _ => z)

/-- Memory1 of a store (R65, R192, R193): in range, exactly the addressed cell becomes the data value; else a fault that changes
nothing but the status. The canonical form `Memory.wf` is the model's own and no rule of the spec (DESIGN CHOICE, log entry 5): the
premise `Memory.wf s.dmem` and the clause that the new memory has it rest on that entry. -/
def Obligations.StoresFollowTheirRules : Prop :=
  (∀ (a b c : Int) (imm : Int), hasTag (.store a b imm) 0x0C ∧ faultsOnFields (.store a b imm) ∧
    hasTag (.str a b c) 0x0D ∧ faultsOnFields (.str a b c)) ∧
  ∀ (a b c : Nat) (imm : Int),
    gatedOn (.store a b imm) [a, b] (fun s l => { l with rs1Value := s.readReg a, rs2Value := s.readReg b }) ∧
    gatedOn (.str a b c) [a, b, c]
      (fun s l => { l with rs1Value := s.readReg a, rs2Value := s.readReg b, rs3Value := s.readReg c }) ∧
    (∀ s : State, s.runs .execute1 → s.latches.ex1.active = true →
      let e := s.latches.ex1
      exec (.store a b imm) s = .next (s.advanced .execute1 { e with memAddress := wrap s.cfg.xlen (e.rs2Value + imm) }) ∧
      exec (.str a b c) s = .next (s.advanced .execute1 { e with memAddress := wrap s.cfg.xlen (e.rs2Value + e.rs3Value) })) ∧
    ∀ i ∈ [Instr.store a b imm, Instr.str a b c],
      forwardsOnly i .execute2 ∧
      (∀ s : State, s.runs .memory1 → s.latches.mem1.active = true →
        (∀ k : Nat, s.latches.mem1.memAddress = (k : Int) → k < s.cfg.dmemSize → Memory.wf s.dmem = true →
          ∃ m : Memory, exec i s = .next { s.advanced .memory1 s.latches.mem1 with dmem := m } ∧
            Memory.read m k = s.latches.mem1.rs1Value ∧ (∀ j, j ≠ k → Memory.read m j = Memory.read s.dmem j) ∧
            Memory.wf m = true) ∧
        (¬ (0 ≤ s.latches.mem1.memAddress ∧ s.latches.mem1.memAddress < (s.cfg.dmemSize : Int)) →
          exec i s = .next (s.raised .addressOutOfRange s.latches.mem1.pc (.data s.latches.mem1.memAddress)))) ∧
      forwardsOnly i .memory2 ∧ onlyCounted i

/-- R210, R211 (BZ, BNZ), with the commit and the flush of R121 and R122: Decode follows the budget; BZ stages its target when Z
is 1, BNZ when Z is 0; a staged target is committed with the flush; retirement clears Z and the budget. -/
def Obligations.BranchesFollowTheirRules : Prop :=
  ∀ p ∈ [(Instr.bz, (0x0E : BitVec 8), true), (Instr.bnz, 0x0F, false)], ∀ imm : Int, let i := p.1 imm
    hasTag i p.2.1 ∧ followsBudget i ∧
    forwardsOnly i .execute1 ∧
    (∀ s : State, s.runs .execute2 → s.latches.ex2.active = true →
      (s.z = p.2.2 → exec i s = .next ({ s with
          brTarget := s.target s.latches.ex2.pc imm, brPending := true }.advanced .execute2 s.latches.ex2)) ∧
      (s.z ≠ p.2.2 → exec i s = .next (s.advanced .execute2 s.latches.ex2))) ∧
    (∀ s : State, s.runs .memory1 → s.latches.mem1.active = true →
      (s.brPending = true → exec i s = .next { s with
          pc := s.brTarget, z := false, brPending := false, jmpPending := false, flushedNow := true,
          latches := { s.latches with f := bubble false, drf := bubble false, ex1 := bubble false, ex2 := bubble false,
                                      mem2 := s.latches.mem1 } }) ∧
      (s.brPending = false → exec i s = .next (s.advanced .memory1 s.latches.mem1))) ∧
    forwardsOnly i .memory2 ∧
    (∀ s : State, s.runs .writeback → exec i s = .next { s with z := false, bstall := 0, completed := s.completed + 1 })

/-- R209: Decode of BZ and of BNZ stalls, spending budget, while the opcode in Execute1 is in BR_STALL_SET and budget is left;
else the branch leaves Decode. Nothing else of the state is read: the branch reads no register and has no scoreboard gate. -/
def Obligations.BranchBudgetStallsTheBranch : Prop :=
  ∀ mk ∈ [Instr.bz, Instr.bnz], ∀ imm : Int, followsBudget (mk imm)

/-- R212 (JUMP): gated on and read from its base register, which is `rd` unless the parameter I7 says otherwise; redirects in
Execute1; leaves Execute2 as `bubble(1)`. -/
def Obligations.JumpFollowsItsRule : Prop :=
  (∀ (base : Int) (imm : Int), let i := Instr.jump base imm; hasTag i 0x10 ∧ faultsOnFields i) ∧
  ∀ (base : Nat) (imm : Int), let i := Instr.jump base imm
    gatedOn i [base] (fun s l => { l with rs1Value := s.readReg base }) ∧
    (∀ s : State, s.runs .execute1 → s.latches.ex1.active = true →
      let t := s.target s.latches.ex1.rs1Value imm
      let e := { s.latches.ex1 with nextAddr := wrap s.cfg.xlen (t + s.cfg.width) }
      exec i s = .next { s with
        pc := t, jmpAddr := wrap s.cfg.xlen (t + s.cfg.width), jmpPending := true,
        latches := { s.latches with drf := { s.latches.drf with busy := true }, ex1 := e, ex2 := e } }) ∧
    (∀ s : State, s.runs .execute2 →
      exec i s = .next { s with
        latches := { s.latches with ex2 := { s.latches.ex2 with stalled := true }, mem1 := bubble true } })

/-- R213 (NOP). -/
def Obligations.NopFollowsItsRule : Prop :=
  hasTag .nop 0x12 ∧
  leavesDecode .nop ∧
  forwardsOnly .nop .execute1 ∧ forwardsOnly .nop .execute2 ∧ forwardsOnly .nop .memory1 ∧ forwardsOnly .nop .memory2 ∧
  ∀ s : State, s.runs .writeback →
    exec .nop s = .next { s with completed := s.completed + (if s.cfg.nopCounts then 1 else 0) }

/-- R214 (HALT). -/
def Obligations.HaltFollowsItsRule : Prop :=
  hasTag .halt 0x11 ∧
  (∀ s : State, s.runs .decode → let d := { s.latches.drf with stalled := false }
    exec .halt s = .next { s with
      haltFlag := true
      latches := { s.latches with f := { s.latches.f with busy := true }, drf := d, ex1 := d } }) ∧
  forwardsOnly .halt .execute1 ∧ forwardsOnly .halt .execute2 ∧ forwardsOnly .halt .memory1 ∧ forwardsOnly .halt .memory2 ∧
  ∀ s : State, s.runs .writeback →
    exec .halt s = .next { s with programSize := s.completed + 1, completed := s.completed + 1 }

/-! ### Decode's checks and gate, over all instructions -/

/-- R233, the register variant: the first used field outside 0..NREG-1, in the order rd, rs1, rs2, rs3, raises the fault, before the
gate and before any other effect; the state changes in its status only. -/
def Obligations.FirstFieldOutOfRangeFaults : Prop :=
  ∀ i : Instr, faultsOnFields i

/-- R84, R233, R237: Decode raises no fault on an instruction all of whose used fields name registers. -/
def Obligations.WellFormedInstructionsPassTheFieldCheck : Prop :=
  ∀ (i : Instr) (s : State), s.runs .decode → i.fieldsInRange s.cfg = true →
    ∃ t, exec i s = .next t ∧ t.status = .running

/-- R108, over all instructions: while some source register is reserved, Decode holds the instruction and reads nothing; once
every source is valid, an instruction that is no branch leaves Decode. -/
def Obligations.ScoreboardGateHoldsEveryReader : Prop :=
  ∀ (i : Instr) (s : State), s.runs .decode → i.fieldsInRange s.cfg = true →
    ((∃ r : Nat, (r : Int) ∈ i.sourceFields ∧ s.isValid r = false) → exec i s = .next s.held) ∧
    ((∀ r : Nat, (r : Int) ∈ i.sourceFields → s.isValid r = true) → i.isBranch = false →
      ∃ t, exec i s = .next t ∧ t.latches.drf.stalled = false ∧ t.latches.ex1 = t.latches.drf)

/-! ### Frames, over all instructions and all stages -/

/-- R23, R130: a register is written only by Writeback of a register producer, and then it is the destination that becomes
`buffer`. -/
def Obligations.RegistersWrittenOnlyByProducersInWriteback : Prop :=
  ∀ (i : Instr) (s t : State), exec i s = .next t →
    (¬ (s.stage = .writeback ∧ i.destField?.isSome = true) → t.x = s.x) ∧
    (s.stage = .writeback → ∀ v, i.destField? = some v →
      ∃ r : Nat, v = (r : Int) ∧ r < s.cfg.nreg ∧ t.x = s.x.set r s.latches.wb.buffer)

/-- R25, R113, R131: the scoreboard is written only by Execute1's reservation and Writeback's release. That the release writes
nothing, rather than 0, when Memory2 holds an active producer of the same register is DEDUCED (log entry 12). -/
def Obligations.ScoreboardWrittenInTwoPlaces : Prop :=
  ∀ (i : Instr) (s t : State), exec i s = .next t →
    (¬ ((s.stage = .execute1 ∨ s.stage = .writeback) ∧ i.destField?.isSome = true) → t.valid = s.valid) ∧
    (∀ v, i.destField? = some v → s.stage = .execute1 →
      ∃ r : Nat, v = (r : Int) ∧ r < s.cfg.nreg ∧ t.valid = s.valid.set r false) ∧
    (∀ v, i.destField? = some v → s.stage = .writeback →
      ∃ r : Nat, v = (r : Int) ∧ r < s.cfg.nreg ∧
        t.valid = if s.sameWriterBehind r then s.valid else s.valid.set r true)

/-- R131, over every register producer and every register: Writeback releases the destination's bit, unless Memory2 holds an active
producer of the same register, in which case a bit that is 0 stays 0; no other bit changes. -/
def Obligations.ReleaseFollowsItsRule : Prop :=
  ∀ (i : Instr) (rd : Nat) (s : State), s.runs .writeback → i.destField? = some (rd : Int) → rd < s.cfg.nreg →
    ∃ t, exec i s = .next t ∧ t.valid.length = s.valid.length ∧
      (s.sameWriterBehind rd = true → s.isValid rd = false → t.isValid rd = false) ∧
      (s.sameWriterBehind rd = false → rd < s.valid.length → t.isValid rd = true) ∧
      ∀ r, r ≠ rd → t.isValid r = s.isValid r

/-- R130, R131, R132, R134, over every register producer: Writeback commits, releases, counts, and sets Z for a flag producer only.
The case that R131 leaves silent is in it: with a producer of the same register behind, the bit is not written, whatever it holds
(DEDUCED, log entry 12). -/
def Obligations.EveryProducerCommits : Prop :=
  ∀ (i : Instr) (rd : Nat) (s : State), s.runs .writeback → i.destField? = some (rd : Int) → rd < s.cfg.nreg →
    exec i s = .next (s.committed rd (if i.opcode.isFlagProducer then decide (s.latches.wb.buffer = 0) else s.z))

/-- R28, the places an instruction writes pc: Fetch's advance, JUMP in Execute1, a staged branch in Memory1. (The fourth place,
Execute2's deferred redirect, belongs to the stage and not to an instruction.) -/
def Obligations.InstructionsWritePcInThreePlaces : Prop :=
  ∀ (i : Instr) (s t : State), exec i s = .next t →
    (s.stage = .fetch → s.latches.drf.stalled = false → t.pc = wrap s.cfg.xlen (s.pc + s.cfg.width)) ∧
    (∀ base imm, i = .jump base imm → s.stage = .execute1 →
      t.pc = s.target s.latches.ex1.rs1Value imm) ∧
    (s.stage = .memory1 → i.isBranch = true → s.brPending = true → t.pc = s.brTarget) ∧
    (¬ (s.stage = .fetch ∧ s.latches.drf.stalled = false) → ¬ (s.stage = .execute1 ∧ i.opcode = .jump) →
      ¬ (s.stage = .memory1 ∧ i.isBranch = true ∧ s.brPending = true) → t.pc = s.pc)

/-- R30, R132, while the run goes on: Z is written only by Writeback of a flag producer (to whether the committed value is 0), by a
branch's commit (to 0) and by a branch's retirement (to 0). -/
def Obligations.ZeroFlagWrittenInThreePlaces : Prop :=
  ∀ (i : Instr) (s t : State), s.status = .running → exec i s = .next t →
    t.z =
      if s.stage = .writeback ∧ i.opcode.isFlagProducer = true then decide (s.latches.wb.buffer = 0)
      else if s.stage = .memory1 ∧ i.isBranch = true ∧ s.brPending = true then false
      else if s.stage = .writeback ∧ i.isBranch = true then false
      else s.z

/-- R47, R65: no data cell changes but the one a store addresses in Memory1, and every other instruction and stage leaves the
whole memory as it was. -/
def Obligations.DataMemoryWrittenOnlyByStores : Prop :=
  ∀ (i : Instr) (s t : State), exec i s = .next t →
    (¬ (s.stage = .memory1 ∧ i.isStore = true) → ∀ j, Memory.read t.dmem j = Memory.read s.dmem j) ∧
    (∀ k, dataIndex? s.cfg s.latches.mem1.memAddress = some k →
      ∀ j, j ≠ k → Memory.read t.dmem j = Memory.read s.dmem j) ∧
    (dataIndex? s.cfg s.latches.mem1.memAddress = none → t.dmem = s.dmem)

/-- R31 to R39: who writes the counters, the pending registers, the flags and the status. Two clauses are about fields that the
model chose and no rule of the spec names: `t.stage = s.stage` (DESIGN CHOICE, log entry 1) and `t.cfg = s.cfg` (DESIGN CHOICE, log
entry 2). -/
def Obligations.ControlRegistersFrame : Prop :=
  ∀ (i : Instr) (s t : State), exec i s = .next t →
    t.clock = s.clock ∧ t.cfg = s.cfg ∧ t.stage = s.stage ∧
    (s.stage ≠ .writeback → t.completed = s.completed) ∧
    (¬ (s.stage = .writeback ∧ i.opcode = .halt) → t.programSize = s.programSize) ∧
    (¬ ((s.stage = .decode ∨ s.stage = .writeback) ∧ i.isBranch = true) → t.bstall = s.bstall) ∧
    (¬ ((s.stage = .execute2 ∨ s.stage = .memory1) ∧ i.isBranch = true) → t.brPending = s.brPending) ∧
    (¬ (s.stage = .execute2 ∧ i.isBranch = true) → t.brTarget = s.brTarget) ∧
    (¬ (s.stage = .execute1 ∧ i.opcode = .jump) → t.jmpAddr = s.jmpAddr) ∧
    (¬ (s.stage = .execute1 ∧ i.opcode = .jump) → ¬ (s.stage = .memory1 ∧ i.isBranch = true) → t.jmpPending = s.jmpPending) ∧
    (¬ (s.stage = .decode ∧ i.opcode = .halt) → t.haltFlag = s.haltFlag) ∧
    (¬ (s.stage = .memory1 ∧ i.isBranch = true) → t.flushedNow = s.flushedNow) ∧
    (s.stage ≠ .decode → ¬ (s.stage = .memory1 ∧ i.isStore = true) → ¬ (s.stage = .memory2 ∧ i.isLoad = true) →
      t.status = s.status)

/-- R41, R43, R122: an instruction writes no latch but its stage's own and the next one, except HALT's Decode (`L[F].busy`),
JUMP's Execute1 (`L[DRF].busy`) and a staged branch's flush in Memory1. -/
def Obligations.InstructionsWriteOnlyTheirLatches : Prop :=
  ∀ (i : Instr) (s t : State), exec i s = .next t →
    (s.stage ≠ .memory1 → s.stage ≠ .fetch → (¬ (s.stage = .decode ∧ i.opcode = .halt)) → t.latches.f = s.latches.f) ∧
    (s.stage = .decode → i.opcode = .halt → t.latches.f = { s.latches.f with busy := true } ∨ t.status ≠ .running) ∧
    (s.stage = .fetch → t.latches.f = s.latches.f) ∧
    (s.stage ≠ .memory1 → s.stage ≠ .fetch → s.stage ≠ .decode → ¬ (s.stage = .execute1 ∧ i.opcode = .jump) →
      t.latches.drf = s.latches.drf) ∧
    (s.stage ≠ .memory1 → s.stage ≠ .decode → s.stage ≠ .execute1 → t.latches.ex1 = s.latches.ex1) ∧
    (s.stage ≠ .memory1 → s.stage ≠ .execute1 → s.stage ≠ .execute2 → t.latches.ex2 = s.latches.ex2) ∧
    (s.stage = .memory1 → ¬ (i.isBranch = true ∧ s.brPending = true) →
      t.latches.f = s.latches.f ∧ t.latches.drf = s.latches.drf ∧ t.latches.ex1 = s.latches.ex1 ∧ t.latches.ex2 = s.latches.ex2) ∧
    (s.stage ≠ .execute2 → s.stage ≠ .memory1 → t.latches.mem1 = s.latches.mem1) ∧
    (s.stage ≠ .memory1 → s.stage ≠ .memory2 → t.latches.mem2 = s.latches.mem2) ∧
    (s.stage ≠ .memory2 → t.latches.wb = s.latches.wb)

/-- R134: every instruction's Writeback counts it once, a NOP only when NOP_COUNTS. -/
def Obligations.EveryRetirementIsCounted : Prop :=
  ∀ (i : Instr) (s t : State), exec i s = .next t → s.runs .writeback →
    t.completed = s.completed + (if i = .nop ∧ s.cfg.nopCounts = false then 0 else 1)

/-! ### The stage procedures and the step -/

/-- R100, R101: the driver. The completion test comes first, then the budget test, then the seven procedures in the reverse
order, each only while the run goes on (R231), then the clock. -/
def Obligations.TheDriverRunsOneTick : Prop :=
  ∀ s : State, s.status = .running →
    (s.completed = s.programSize → step s = .next { s with status := .completed }) ∧
    (s.completed ≠ s.programSize → 0 < s.cfg.cycleBudget → s.cfg.cycleBudget ≤ s.clock →
      step s = .next { s with status := .budgetExhausted }) ∧
    (s.ticks → step s =
      thenRun (runStage .writeback { s with flushedNow := false }) fun s =>
      thenRun (runStage .memory2 s) fun s =>
      thenRun (runStage .memory1 s) fun s =>
      thenRun (runStage .execute2 s) fun s =>
      thenRun (runStage .execute1 s) fun s =>
      thenRun (runStage .decode s) fun s =>
      thenRun (runStage .fetch s) fun s => .next { s with clock := s.clock + 1 })

/-- A stage procedure runs the instruction in its latch: on an active latch (in Decode: one that is neither busy nor a bubble,
R107), the procedure is `exec` of that instruction in that stage; Execute2 applies a pending redirect first (R117). -/
def Obligations.StageProceduresRunTheirInstruction : Prop :=
  ∀ (s : State) (i : Instr),
    (s.latches.drf.instr? s.cfg.jumpBase = some i → s.latches.drf.busy = false →
      runStage .decode s = exec i { s with stage := .decode }) ∧
    (∀ S ∈ [Stage.execute1, .memory1, .memory2, .writeback], (s.latch S).instr? s.cfg.jumpBase = some i →
      (s.latch S).active = true → runStage S s = exec i { s with stage := S }) ∧
    (s.latches.ex2.instr? s.cfg.jumpBase = some i → s.latches.ex2.active = true →
      (s.jmpPending = false → runStage .execute2 s = exec i { s with stage := .execute2 }) ∧
      (s.jmpPending = true →
        runStage .execute2 s = exec i { s with stage := .execute2, pc := s.jmpAddr, jmpPending := false }))

/-- A step runs the decoded instruction: when the six older stages leave a running state `u` whose pc has a record that decodes to
`i`, and Fetch is not held, the step is `exec i` in Fetch on the state with the record in `L[F]`, and then the clock (R106). What
`exec i` does there is said too: unless Decode is stalled, pc advances by W and the instruction is in `L[DRF]`. -/
def Obligations.StepRunsTheFetchedInstruction : Prop :=
  ∀ (s u : State) (r : Record) (i : Instr), s.ticks → beforeFetch { s with flushedNow := false } = .next u →
    u.status = .running → fetchHeld u = false → codeAt? u = some r → decode u.cfg.jumpBase r = .instr i →
    let l := fetchedLatch u.pc r
    step s = thenRun (exec i { u with stage := .fetch, latches := { u.latches with f := l } })
      (fun t => .next { t with clock := t.clock + 1 }) ∧
    l.instr? u.cfg.jumpBase = some i ∧
    (u.latches.drf.stalled = false →
      step s = .next { u with
        stage := .fetch, pc := wrap u.cfg.xlen (u.pc + u.cfg.width), clock := u.clock + 1,
        latches := { u.latches with f := l, drf := l } }) ∧
    (u.latches.drf.stalled = true →
      step s = .next { u with stage := .fetch, clock := u.clock + 1, latches := { u.latches with f := l } })

/-- R105, R126: on a latch that is not active, Execute1, Memory1 and Memory2 only forward a bubble with the latch's stall mark,
Execute2 does so after the deferred redirect, which is not suppressed (R117), and Writeback does nothing. -/
def Obligations.InactiveLatchesForwardBubbles : Prop :=
  ∀ s : State,
    (s.latches.ex1.active = false → runStage .execute1 s =
      .next { s with stage := .execute1, latches := { s.latches with ex2 := bubble s.latches.ex1.stalled } }) ∧
    (s.latches.ex2.active = false → s.jmpPending = false → runStage .execute2 s =
      .next { s with stage := .execute2, latches := { s.latches with mem1 := bubble s.latches.ex2.stalled } }) ∧
    (s.latches.ex2.active = false → s.jmpPending = true → runStage .execute2 s =
      .next { s with stage := .execute2, pc := s.jmpAddr, jmpPending := false,
                     latches := { s.latches with mem1 := bubble s.latches.ex2.stalled } }) ∧
    (s.latches.mem1.active = false → runStage .memory1 s =
      .next { s with stage := .memory1, latches := { s.latches with mem2 := bubble s.latches.mem1.stalled } }) ∧
    (s.latches.mem2.active = false → runStage .memory2 s =
      .next { s with stage := .memory2, latches := { s.latches with wb := bubble s.latches.mem2.stalled } }) ∧
    (s.latches.wb.active = false → runStage .writeback s = .next { s with stage := .writeback })

/-- R107, decision D38: a busy latch or a bubble is not decoded: its `stalled` is cleared and `bubble()` is sent. -/
def Obligations.BusyOrEmptyDecodeSendsABubble : Prop :=
  ∀ s : State, s.latches.drf.busy = true ∨ s.latches.drf.opcode = .bubble →
    runStage .decode s = .next { s with
      stage := .decode
      latches := { s.latches with drf := { s.latches.drf with stalled := false }, ex1 := bubble false } }

/-- R232: Decode raises UnrecognizedOpcode on an unknown opcode it processes, before any other effect, and no other procedure
raises it on anything. -/
def Obligations.UnknownOpcodesFaultInDecodeOnly : Prop :=
  (∀ (s : State) (text : String), s.latches.drf.busy = false → s.latches.drf.opcode = .unknown text →
    runStage .decode s =
      .next ({ s with stage := .decode }.raised .unrecognizedOpcode s.latches.drf.pc (.opcode text))) ∧
  (∀ (S T : Stage) (s t : State) (pc : Int) (info : FaultInfo), s.status = .running → runStage S s = .next t →
    t.status = .faulted .unrecognizedOpcode T pc info →
    S = .decode ∧ T = .decode ∧ pc = s.latches.drf.pc ∧ s.latches.drf.busy = false ∧
      ∃ text, s.latches.drf.opcode = .unknown text ∧ info = .opcode text)

/-- R106, decisions D18, D21, D29: Fetch, in its four cases. -/
def Obligations.FetchFollowsItsRule : Prop :=
  ∀ s : State,
    let held := s.latches.f.busy || s.latches.f.stalled || (s.cfg.flushFetchHold && s.flushedNow)
    let k := s.pc - s.cfg.codeBase
    let load (l : Latch) : State :=
      if s.latches.drf.stalled then { s with stage := .fetch, latches := { s.latches with f := l } }
      else { s with stage := .fetch, pc := wrap s.cfg.xlen (s.pc + s.cfg.width), latches := { s.latches with f := l, drf := l } }
    let inside := 0 ≤ k ∧ k.toNat / s.cfg.width < s.cfg.code.length
    (held = true → s.latches.drf.stalled = true → runStage .fetch s = .next { s with stage := .fetch }) ∧
    (held = true → s.latches.drf.stalled = false →
      runStage .fetch s = .next { s with stage := .fetch, latches := { s.latches with drf := bubble false } }) ∧
    (held = false → inside →
      ∃ r, s.cfg.code[k.toNat / s.cfg.width]? = some r ∧ runStage .fetch s = .next (load (fetchedLatch s.pc r))) ∧
    (held = false → ¬ inside → s.cfg.fetchOob = .bubble →
      runStage .fetch s = .next (load { bubble false with pc := s.pc })) ∧
    (held = false → ¬ inside → s.cfg.fetchOob = .fault →
      runStage .fetch s = .next ({ s with stage := .fetch }.raised .addressOutOfRange s.pc (.code s.pc)))

/-- R38: once the status is not Running nothing changes. -/
def Obligations.EndedRunsNeverChange : Prop :=
  ∀ s : State, s.status ≠ .running → step s = .next s

/-- R31, R231: a step from a running state adds 1 to the clock when the run goes on, and leaves the clock when the run ends. -/
def Obligations.ClockCountsCompletedTicks : Prop :=
  ∀ s t : State, s.status = .running → step s = .next t →
    (t.status = .running → t.clock = s.clock + 1) ∧ (t.status ≠ .running → t.clock = s.clock)

/-- R230, R234: a fault's kind, stage and info fit together, as the table of R230 has them; Writeback, Execute2 and Execute1 raise
none, and Fetch only when FETCH_OOB is `fault`. -/
def Obligations.FaultsAreThoseOfTheTable : Prop :=
  ∀ (s t : State) (kind : FaultKind) (S : Stage) (pc : Int) (info : FaultInfo),
    s.status = .running → step s = .next t → t.status = .faulted kind S pc info →
    (kind = .unrecognizedOpcode ∧ S = .decode ∧ ∃ text, info = .opcode text) ∨
    (kind = .addressOutOfRange ∧ S = .decode ∧ ∃ f v, info = .register f v ∧ inRange s.cfg.nreg v = false) ∨
    (kind = .addressOutOfRange ∧ (S = .memory1 ∨ S = .memory2) ∧
      ∃ a, info = .data a ∧ ¬ (0 ≤ a ∧ a < (s.cfg.dmemSize : Int))) ∨
    (kind = .addressOutOfRange ∧ S = .fetch ∧ info = .code pc ∧ s.cfg.fetchOob = .fault)

/-- R33, R134, R214: in a tick, `completed` grows by 1 when Writeback retires an instruction (a NOP only when NOP_COUNTS) and
else stays; `program_size` changes only when a HALT retires, to `completed + 1`. -/
def Obligations.RetirementCountsPerTick : Prop :=
  ∀ s t : State, s.ticks → step s = .next t →
    t.completed = s.completed +
      (if s.latches.wb.active = true ∧ ¬ (s.latches.wb.opcode = .op .nop ∧ s.cfg.nopCounts = false) then 1 else 0) ∧
    t.programSize =
      (if s.latches.wb.active = true ∧ s.latches.wb.opcode = .op .halt then s.completed + 1 else s.programSize)

/-- R23, R130 over a step: the registers change only by the retirement of the producer in Writeback. -/
def Obligations.StepWritesRegistersOnlyByRetirement : Prop :=
  ∀ s t : State, step s = .next t →
    t.x = s.x ∨
    ∃ (o : Opcode) (r : Nat), r < s.cfg.nreg ∧ s.latches.wb.active = true ∧ s.latches.wb.opcode = .op o ∧ o.isProducer = true ∧
      s.latches.wb.rd = (r : Int) ∧ t.x = s.x.set r s.latches.wb.buffer

/-- R47, R72 over a step: a data cell changes only when it is the cell that an active STORE or STR in Memory1 addresses; no
instruction of an earlier stage reaches memory. -/
def Obligations.StepWritesMemoryOnlyFromMemory1 : Prop :=
  ∀ (s t : State) (j : Nat), step s = .next t → Memory.read t.dmem j ≠ Memory.read s.dmem j →
    s.latches.mem1.active = true ∧ (s.latches.mem1.opcode = .op .store ∨ s.latches.mem1.opcode = .op .str) ∧
    dataIndex? s.cfg s.latches.mem1.memAddress = some j

/-- R69: a load in Memory2 reads the value from before the store that is in Memory1 in the same tick. -/
def Obligations.LoadReadsBeforeTheYoungerStore : Prop :=
  ∀ (s t : State) (c : Nat), s.ticks → step s = .next t → s.latches.mem2.active = true →
    (s.latches.mem2.opcode = .op .load ∨ s.latches.mem2.opcode = .op .ldr) →
    dataIndex? s.cfg s.latches.mem2.memAddress = some c →
    t.latches.wb = { s.latches.mem2 with buffer := Memory.read s.dmem c }

/-- R140: in a tick that ends running, every active latch past Decode moves one stage on, with its pc and its instruction; a
flush removes what was in Execute1 and Execute2, and a JUMP leaves Execute2 as a bubble. -/
def Obligations.InFlightInstructionsMoveOneStage : Prop :=
  ∀ s t : State, s.status = .running → step s = .next t → t.status = .running →
    let same (b a : Latch) : Prop := a.pc = b.pc ∧ a.instr? s.cfg.jumpBase = b.instr? s.cfg.jumpBase ∧ a.active = true
    (s.latches.mem2.active = true → same s.latches.mem2 t.latches.wb) ∧
    (s.latches.mem1.active = true → same s.latches.mem1 t.latches.mem2) ∧
    (t.flushedNow = false → s.latches.ex2.active = true → s.latches.ex2.noJump = true → same s.latches.ex2 t.latches.mem1) ∧
    (t.flushedNow = false → s.latches.ex2.active = true → s.latches.ex2.noJump = false → t.latches.mem1 = bubble true) ∧
    (t.flushedNow = false → s.latches.ex1.active = true → same s.latches.ex1 t.latches.ex2)

/-- R121, R122 over a tick that ends running: a flush happens exactly when an active BZ or BNZ is in Memory1 with a staged target;
then Execute1 and Execute2 end the tick as bubbles, nothing is pending, Z is 0, and Fetch has gone on at the target unless
FLUSH_FETCH_HOLD. -/
def Obligations.TakenBranchFlushesTheTick : Prop :=
  ∀ s t : State, s.status = .running → step s = .next t → t.status = .running →
    (t.flushedNow = true ↔ s.latches.mem1.active = true ∧
      (s.latches.mem1.opcode = .op .bz ∨ s.latches.mem1.opcode = .op .bnz) ∧ s.brPending = true) ∧
    (t.flushedNow = true →
      t.latches.ex1 = bubble false ∧ t.latches.ex2 = bubble false ∧ t.brPending = false ∧ t.jmpPending = false ∧ t.z = false ∧
      (s.cfg.flushFetchHold = true → t.pc = s.brTarget ∧ t.latches.f = bubble false ∧ t.latches.drf = bubble false) ∧
      (s.cfg.flushFetchHold = false →
        t.pc = wrap s.cfg.xlen (s.brTarget + s.cfg.width) ∧ t.latches.f.pc = s.brTarget ∧ t.latches.drf = t.latches.f))

/-- R212, R271 over a tick that ends running without a flush: an active JUMP in Execute1, with Fetch not frozen, redirects Fetch to
its target in this very tick, and the instruction that was in Decode is gone: exactly one bubble follows the JUMP. -/
def Obligations.JumpCostsOneBubble : Prop :=
  ∀ (s t : State) (base : Int) (imm : Int), s.status = .running → step s = .next t → t.status = .running →
    t.flushedNow = false → s.latches.ex1.active = true → s.latches.ex1.instr? s.cfg.jumpBase = some (.jump base imm) →
    s.latches.f.busy = false → s.latches.f.stalled = false →
    let target := s.target s.latches.ex1.rs1Value imm
    t.latches.ex1 = bubble false ∧ t.latches.drf = t.latches.f ∧ t.latches.f.pc = target ∧
    t.pc = wrap s.cfg.xlen (target + s.cfg.width) ∧ t.jmpPending = true ∧ t.jmpAddr = t.pc

/-- R103, R108, R113: a reservation made by this tick's Execute1 is seen by this tick's Decode: in a tick that ends running without
a flush, the reader of a register that the producer in Execute1 reserves is held in Decode. -/
def Obligations.ReservationStallsTheReaderInTheSameTick : Prop :=
  ∀ (s t : State) (p i : Instr) (r : Nat), s.status = .running → step s = .next t → t.status = .running →
    t.flushedNow = false → s.latches.ex1.active = true → s.latches.ex1.instr? s.cfg.jumpBase = some p →
    p.destField? = some (r : Int) →
    s.latches.drf.instr? s.cfg.jumpBase = some i → s.latches.drf.busy = false → (r : Int) ∈ i.sourceFields →
    t.latches.drf.stalled = true ∧ t.latches.drf.instr? s.cfg.jumpBase = some i ∧ t.latches.ex1 = bubble true

/-! ### Invariants -/

/-- The invariant holds at construction for every parameter set that meets R6's constraints. -/
def Obligations.ConstructionMeetsTheInvariant : Prop :=
  ∀ cfg : Config, cfg.wellFormed = true → (State.construct cfg).Inv

/-- R21, R24, R29, R34, R141, R212 and the canonical memory (log entry 5): every step keeps the invariant, from every state that
has it. -/
def Obligations.EveryStepKeepsTheInvariant : Prop :=
  ∀ s t : State, s.Inv → step s = .next t → t.Inv

/-- R246 ("Stuck: no such state. `Step` is total in every `Running` state."): from every state with the invariant, a step answers a
next state: no fault and no refusal of the model's own stops it. That a run that has ended still answers a next state is the model's
choice (log entry 3), and the one fault it rules out is the model's own (log entry 4). -/
def Obligations.EveryGoodStateHasAStep : Prop :=
  ∀ s : State, s.Inv → ∃ t, step s = .next t

/-- R6, R7: construction with parameters that meet R6 puts a word of XLEN bits wherever the spec says word (the model keeps words as
integers, log entry 9). -/
def Obligations.ConstructionMakesWords : Prop :=
  ∀ cfg : Config, cfg.wellFormed = true → (State.construct cfg).WordsFit

/-- R7, R159, R21, R29, R47: every step keeps every register, data cell, pc, target and latch value a word of XLEN bits, from every
state in which all are (the model keeps words as integers, log entry 9). -/
def Obligations.EveryStepKeepsWords : Prop :=
  ∀ s t : State, s.WordsFit → step s = .next t → t.WordsFit

/-- The redirect invariant holds at construction. -/
def Obligations.ConstructionMeetsTheRedirectInvariant : Prop :=
  ∀ cfg : Config, (State.construct cfg).RedirectInv

/-- R143 ("The deferred redirect is a no-op"): every step of a run that goes on keeps the redirect invariant, so Execute2's write
stores the value pc already holds. -/
def Obligations.EveryStepKeepsTheRedirectInvariant : Prop :=
  ∀ s t : State, s.RedirectInv → step s = .next t → t.status = .running → t.RedirectInv

/-- R46, R245: no step writes the code or the parameters. -/
def Obligations.StepsNeverWriteTheParameters : Prop :=
  ∀ s t : State, step s = .next t → t.cfg = s.cfg

/-- R51, decision D25: RUN_MODE has no effect on any state or on the number of ticks. -/
def Obligations.RunModeHasNoEffect : Prop :=
  ∀ (s t : State) (m : RunMode), step s = .next t → step (s.withRunMode m) = .next (t.withRunMode m)

/-- R37 ("No rule of this spec reads it"): two states that differ in `halt_flag` only step to states that differ in `halt_flag`
only. -/
def Obligations.HaltFlagIsReadByNothing : Prop :=
  ∀ (s t : State) (b : Bool), step s = .next t →
    ∃ t', step { s with haltFlag := b } = .next t' ∧ { t' with haltFlag := false } = { t with haltFlag := false }

/-- The model's own field `stage` (DESIGN CHOICE, log entry 1) carries nothing from one tick to the next: two states that differ in
it only step to states that differ in it only. -/
def Obligations.StageFieldCarriesNothing : Prop :=
  ∀ (s t : State) (S : Stage), step s = .next t →
    ∃ t', step { s with stage := S } = .next t' ∧ { t' with stage := .fetch } = { t with stage := .fetch }

/-! ### Encoding -/

/-- R83, R85, R86: the encoder's record decodes to the instruction, for every instruction and every operand; a tag selects an
opcode exactly when R85's table pairs them, so BUBBLE's 0x00 and 0x13 to 0xFF select none; and a record decodes to an instruction
exactly when it has the instruction's opcode and the fields its format uses, whatever the other fields hold. -/
def Obligations.DecodeAndEncodeAgree : Prop :=
  (∀ (ji : Field) (i : Instr), decode ji (encode ji i) = .instr i) ∧
  (∀ (tag : BitVec 8) (o : Opcode), opcodeOfTag tag = some o ↔ (tag, o) ∈
    [(0x01, .movc), (0x02, .add), (0x03, .addl), (0x04, .sub), (0x05, .subl), (0x06, .mul), (0x07, .and), (0x08, .or),
     (0x09, .xor), (0x0A, .load), (0x0B, .ldr), (0x0C, .store), (0x0D, .str), (0x0E, .bz), (0x0F, .bnz), (0x10, .jump),
     (0x11, .halt), (0x12, .nop)]) ∧
  (∀ (ji : Field) (r : Record) (i : Instr), decode ji r = .instr i ↔
    r.opcode = .known i.opcode ∧ (∀ p ∈ i.registerFields ji, r.field p.1 = p.2) ∧ (∀ v, i.literal? = some v → r.imm = v))

/-- Records written out from the tables of R83 and R85, as `95_test_vectors.md` writes them, at least one of every format, decode to
the instructions they stand for, and an unknown opcode and the tags outside the table to none. That a record is built from a tag and
the table's number is read as a record (`recordOfTag`, `decodeTableWord`) is the model's choice (log entry 8). -/
def Obligations.WrittenRecordsDecode : Prop :=
  decode .rd (recordOfTag 0x01 1 0 0 0 5) = .instr (.movc 1 5) ∧
  decode .rd (recordOfTag 0x02 1 2 3 0 0) = .instr (.add 1 2 3) ∧
  decode .rd (recordOfTag 0x03 5 4 0 0 (-10)) = .instr (.addl 5 4 (-10)) ∧
  decode .rd (recordOfTag 0x0A 4 2 0 0 8) = .instr (.load 4 2 8) ∧
  decode .rd (recordOfTag 0x0C 0 2 1 0 8) = .instr (.store 2 1 8) ∧
  decode .rd (recordOfTag 0x0D 0 2 4 1 0) = .instr (.str 2 4 1) ∧
  decode .rd (recordOfTag 0x0F 0 0 0 0 (-4)) = .instr (.bnz (-4)) ∧
  decode .rd (recordOfTag 0x10 1 0 0 0 0) = .instr (.jump 1 0) ∧
  decode .rs1 (recordOfTag 0x10 1 7 0 0 0) = .instr (.jump 7 0) ∧
  decode .rd (recordOfTag 0x12 9 9 9 9 9) = .instr .nop ∧
  decode .rd { opcode := .unknown "FOO", rd := 0, rs1 := 0, rs2 := 0, rs3 := 0, imm := 0 } = .unrecognizedOpcode "FOO" ∧
  decodeTableWord 8 0x11 = some .halt ∧ decodeTableWord 8 0x00 = none ∧ decodeTableWord 8 0x13 = none
end

