-- ==== Sys2Proof/Laws/Align.lean ====
section
/-! SUPPORT. Words of XLEN bits (R7), and alignment (R29, decision D37): what is a word, `align` gives a multiple of W, and adding W
keeps one. -/

namespace Sys2Proof

/-! ### Words -/

theorem isWord_iff {n : Nat} {v : Int} : isWord n v = true ↔ wrap n v = v := beq_iff_eq

/-- Wrapping gives a word. -/
@[simp] theorem isWord_wrap (n : Nat) (v : Int) : isWord n (wrap n v) = true :=
  isWord_iff.mpr Int.bmod_bmod

/-- The signed reading of a bit vector is a word. -/
@[simp] theorem isWord_toInt {n : Nat} (b : BitVec n) : isWord n b.toInt = true :=
  isWord_iff.mpr (by simp [wrap])

@[simp] theorem isWord_zero (n : Nat) : isWord n 0 = true := isWord_iff.mpr (by simp [wrap])

/-- Wrapping first does not change the bits. -/
@[simp] theorem ofInt_wrap (n : Nat) (v : Int) : BitVec.ofInt n (wrap n v) = BitVec.ofInt n v := by
  apply BitVec.eq_of_toInt_eq
  simp [wrap]

/-- Wrapping to `n` bits keeps a multiple of a power of two. -/
theorem dvd_wrap {k : Nat} (n : Nat) {v : Int} (h : (2 : Int) ^ k ∣ v) : (2 : Int) ^ k ∣ wrap n v := by
  rcases Nat.le_total k n with hk | hk
  · have hn : (2 : Int) ^ k ∣ 2 ^ n := pow_dvd_pow 2 hk
    have : wrap n v = v - 2 ^ n * ((v - wrap n v) / 2 ^ n) := by
      have hd : (2 : Int) ^ n ∣ v - wrap n v := by
        have := Int.dvd_self_sub_bmod (x := v) (m := 2 ^ n)
        simpa [wrap] using this
      rw [Int.mul_ediv_cancel' hd]
      ring
    rw [this]
    exact dvd_sub h (hn.trans (dvd_mul_right _ _))
  · have hv : (2 : Int) ^ n ∣ v := (pow_dvd_pow 2 hk).trans h
    have : wrap n v = 0 := by
      have := Int.bmod_eq_zero_of_dvd (a := 2 ^ n) (b := v) (by exact_mod_cast hv)
      simpa [wrap] using this
    simp [this]

end Sys2Proof

namespace Sys2Proof.Machine

theorem alignedTo_iff {w : Nat} {v : Int} : alignedTo w v = true ↔ (w : Int) ∣ v := by
  rw [alignedTo, beq_iff_eq, Int.dvd_iff_emod_eq_zero]

theorem isPowerOfTwo_iff {w : Nat} : isPowerOfTwo w = true ↔ ∃ k, w = 2 ^ k := by
  constructor
  · intro h
    exact ⟨Nat.log2 w, beq_iff_eq.mp h⟩
  · rintro ⟨k, rfl⟩
    simp [isPowerOfTwo]

/-- Clearing the bits below a power of two leaves a multiple of it. -/
theorem dvd_toNat_clear {n : Nat} (x : BitVec n) (k : Nat) :
    2 ^ k ∣ (x &&& ~~~BitVec.ofNat n (2 ^ k - 1)).toNat := by
  apply Nat.dvd_of_mod_eq_zero
  apply Nat.eq_of_testBit_eq
  intro i
  rw [Nat.testBit_mod_two_pow, BitVec.testBit_toNat]
  simp only [BitVec.getLsbD_and, BitVec.getLsbD_not, BitVec.getLsbD_ofNat, Nat.testBit_two_pow_sub_one, Nat.zero_testBit]
  by_cases hi : i < k <;> by_cases hn : i < n <;> simp [hi, hn]

/-- `align` gives a multiple of the width (R7, R29). -/
theorem alignedTo_align {c : Config} (hw : isPowerOfTwo c.width = true) (v : Int) : alignedTo c.width (align c v) = true := by
  obtain ⟨k, hk⟩ := isPowerOfTwo_iff.mp hw
  have hm : ((c.width : Int) - 1) = ((2 ^ k - 1 : Nat) : Int) := by
    rw [hk, Nat.cast_sub Nat.one_le_two_pow]
    simp
  rw [alignedTo_iff, align, bitwise, hm, BitVec.ofInt_natCast, BitVec.toInt_eq_toNat_bmod, hk]
  have := dvd_wrap (k := k) c.xlen (Int.natCast_dvd_natCast.mpr (dvd_toNat_clear (BitVec.ofInt c.xlen v) k))
  simpa [wrap] using this

/-- `align` gives a word. -/
@[simp] theorem isWord_align (c : Config) (v : Int) : isWord c.xlen (align c v) = true := isWord_toInt _

/-- The targets of the statements are the machine's. -/
theorem target_eq (s : State) (base imm : Int) :
    branchTarget s.cfg base imm = s.target base imm ∧ jumpTarget s.cfg base imm = s.target base imm := by
  simp [branchTarget, jumpTarget, align, bitwise, State.target]

/-- Adding the width keeps a multiple of the width (R29). -/
theorem alignedTo_add_width {w : Nat} (n : Nat) {v : Int} (hw : isPowerOfTwo w = true) (h : alignedTo w v = true) :
    alignedTo w (wrap n (v + w)) = true := by
  obtain ⟨k, rfl⟩ := isPowerOfTwo_iff.mp hw
  rw [alignedTo_iff, Nat.cast_pow, Nat.cast_ofNat] at h ⊢
  exact dvd_wrap n (dvd_add h (by simp))

end Sys2Proof.Machine
end

