-- ==== Sys2Proof/Laws/Ops.lean ====
section
/-! SUPPORT. What each shared operation can do, said once: register fields, sequencing, raising, memory access, the shape of a
meaning. -/

namespace Sys2Proof.Machine

/-! ### Register fields -/

theorem inRange_iff {n : Nat} {v : Int} : inRange n v = true ↔ 0 ≤ v ∧ v < n := by
  simp [inRange]

@[simp] theorem inRange_natCast {n r : Nat} : inRange n (r : Int) = decide (r < n) := by
  simp [inRange]

/-- A field in range is the number of a register. -/
theorem exists_reg_of_inRange {n : Nat} {v : Int} (h : inRange n v = true) : ∃ r : Nat, v = (r : Int) ∧ r < n := by
  obtain ⟨h0, h1⟩ := inRange_iff.mp h
  exact ⟨v.toNat, by omega, by omega⟩

theorem regIndex?_of_lt {n r : Nat} (h : r < n) : regIndex? n (r : Int) = some r := by
  simp [regIndex?, h]

theorem regIndex?_eq_some {n : Nat} {v : Int} {r : Nat} : regIndex? n v = some r ↔ v = (r : Int) ∧ r < n := by
  constructor
  · intro h
    unfold regIndex? at h
    split at h
    · obtain ⟨q, rfl, hq⟩ := exists_reg_of_inRange ‹_›
      obtain rfl : q = r := by simpa using h
      exact ⟨rfl, hq⟩
    · cases h
  · rintro ⟨rfl, h⟩
    exact regIndex?_of_lt h

theorem regIndex?_eq_none {n : Nat} {v : Int} : regIndex? n v = none ↔ inRange n v = false := by
  simp [regIndex?]

theorem checkField_of_lt (f : Field) {r : Nat} {s : State} (h : r < s.cfg.nreg) (k : Nat → Result) :
    checkField f (r : Int) s k = k r := by
  simp only [checkField, regIndex?_of_lt h]

theorem withDest_of_lt {r : Nat} {s : State} (h : r < s.cfg.nreg) (k : Nat → Result) :
    withDest (r : Int) s k = k r := by
  simp only [withDest, regIndex?_of_lt h]

/-- The field check raises on a field out of range (R233). -/
theorem checkField_of_not_inRange {v : Int} {s : State} (h : inRange s.cfg.nreg v = false) (f : Field) (k : Nat → Result) :
    checkField f v s k = raise .addressOutOfRange s.own.pc (.register f v) s := by
  simp only [checkField, regIndex?_eq_none.mpr h]

/-- All the field check can do: go on with the register the field names, or raise. -/
theorem checkField_cases (f : Field) (v : Int) (s : State) (k : Nat → Result) :
    (∃ r : Nat, v = (r : Int) ∧ r < s.cfg.nreg ∧ checkField f v s k = k r) ∨
    (inRange s.cfg.nreg v = false ∧ checkField f v s k = raise .addressOutOfRange s.own.pc (.register f v) s) := by
  cases h : inRange s.cfg.nreg v
  · exact .inr ⟨rfl, checkField_of_not_inRange h f k⟩
  · obtain ⟨r, rfl, hr⟩ := exists_reg_of_inRange h
    exact .inl ⟨r, rfl, hr, checkField_of_lt f hr k⟩

/-- If the destination field's operation answers a next state, the field named a register. -/
theorem withDest_next {rd : Int} {s t : State} {k : Nat → Result} (h : withDest rd s k = .next t) :
    ∃ r : Nat, rd = (r : Int) ∧ r < s.cfg.nreg ∧ k r = .next t := by
  unfold withDest at h
  split at h
  · rename_i r hr
    obtain ⟨h1, h2⟩ := regIndex?_eq_some.mp hr
    exact ⟨r, h1, h2, h⟩
  · cases h

/-- Execute1's reservation of a register that exists (R113). -/
theorem reserve_of_lt {r : Nat} {s : State} (h : r < s.cfg.nreg) : reserve (r : Int) s = .next (s.setValid r false) :=
  withDest_of_lt h _

/-- Writeback's commit to a register that exists (R130, R131). -/
theorem commit_of_lt {r : Nat} {s : State} (h : r < s.cfg.nreg) :
    commit (r : Int) s = .next (scoreboardRelease r r (s.writeReg r s.own.buffer)) :=
  withDest_of_lt h _

/-- What the release does to the scoreboard (R131, log entry 12): nothing with a same-destination producer behind, else `<- 1`. -/
theorem scoreboardRelease_valid (rd : Int) (r : Nat) (s : State) :
    (scoreboardRelease rd r s).valid = if sameDestinationBehind rd s then s.valid else s.valid.set r true := by
  unfold scoreboardRelease
  split <;> rfl

/-! ### Sequencing -/

theorem thenRun_of_running {s : State} (f : State → Result) (h : s.status = .running) :
    thenRun (.next s) f = f s := by
  simp [thenRun, h]

theorem thenRun_of_stopped {s : State} (f : State → Result) (h : s.status ≠ .running) :
    thenRun (.next s) f = .next s := by
  simp [thenRun, h]

/-- All a sequence that answers a next state can have done. -/
theorem thenRun_next {r : Result} {f : State → Result} {t : State} (h : thenRun r f = .next t) :
    ∃ s, r = .next s ∧ ((s.status = .running ∧ f s = .next t) ∨ (s.status ≠ .running ∧ s = t)) := by
  cases r with
  | next s =>
    refine ⟨s, rfl, ?_⟩
    by_cases hs : s.status = .running
    · exact .inl ⟨hs, by rwa [thenRun_of_running f hs] at h⟩
    · rw [thenRun_of_stopped f hs] at h
      exact .inr ⟨hs, by cases h; rfl⟩
  | fault e => cases h
  | refused e => cases h

/-- A sequence is the first part, then the second, when the first answers a running state. -/
theorem thenRun_eq {r : Result} {s : State} (f : State → Result) (h : r = .next s) (hs : s.status = .running) :
    thenRun r f = f s := by
  rw [h, thenRun_of_running f hs]

/-- What raising does to the state (R231). -/
theorem raise_eq (k : FaultKind) (pc : Int) (i : FaultInfo) (s : State) :
    raise k pc i s = .next { s with status := .faulted k s.stage pc i } := rfl

/-! ### Data memory -/

theorem dataIndex?_eq_some {cfg : Config} {a : Int} {k : Nat} :
    dataIndex? cfg a = some k ↔ a = (k : Int) ∧ k < cfg.dmemSize := by
  unfold dataIndex?
  constructor
  · intro h
    split at h
    · rename_i hc
      obtain rfl := Option.some.inj h
      exact ⟨by omega, by omega⟩
    · cases h
  · rintro ⟨h1, h2⟩
    rw [h1]
    simp [h2]

theorem dataIndex?_eq_none {cfg : Config} {a : Int} :
    dataIndex? cfg a = none ↔ ¬ (0 ≤ a ∧ a < (cfg.dmemSize : Int)) := by
  unfold dataIndex?
  constructor
  · intro h hc
    rw [if_pos ⟨hc.1, by omega⟩] at h
    cases h
  · intro h
    rw [if_neg]
    intro hc
    exact h ⟨hc.1, by omega⟩

/-- All a memory read can do (R64): go on with the cell's word, or raise. -/
theorem memRead_cases (a : Int) (s : State) (k : Int → Result) :
    (∃ c, dataIndex? s.cfg a = some c ∧ memRead a s k = k (Memory.read s.dmem c)) ∨
    (dataIndex? s.cfg a = none ∧ memRead a s k = raise .addressOutOfRange s.own.pc (.data a) s) := by
  unfold memRead
  cases h : dataIndex? s.cfg a with
  | none => exact .inr ⟨rfl, rfl⟩
  | some c => exact .inl ⟨c, rfl, rfl⟩

/-- All a memory write can do (R65): write the cell, or raise. -/
theorem memWrite_cases (a v : Int) (s : State) :
    (∃ c, dataIndex? s.cfg a = some c ∧ memWrite a v s = .next { s with dmem := Memory.write s.dmem c v }) ∨
    (dataIndex? s.cfg a = none ∧ memWrite a v s = raise .addressOutOfRange s.own.pc (.data a) s) := by
  unfold memWrite
  cases h : dataIndex? s.cfg a with
  | none => exact .inr ⟨rfl, rfl⟩
  | some c => exact .inl ⟨c, rfl, rfl⟩

/-! ### Latches -/

theorem Latch.forwarded_of_active {l : Latch} (h : l.active = true) : l.forwarded = l := by
  simp [Latch.forwarded, h]

theorem Latch.forwarded_of_inactive {l : Latch} (h : l.active = false) : l.forwarded = bubble l.stalled := by
  simp [Latch.forwarded, h]

theorem Latch.active_iff {l : Latch} :
    l.active = true ↔ l.opcode ≠ .bubble ∧ l.busy = false ∧ l.stalled = false := by
  simp [Latch.active, and_assoc]

@[simp] theorem bubble_active (b : Bool) : (bubble b).active = false := rfl

/-- A latch that holds an instruction has its opcode. -/
theorem Latch.opcode_of_instr? {ji : Field} {l : Latch} {i : Instr} (h : l.instr? ji = some i) : l.opcode = .op i.opcode := by
  unfold Latch.instr? at h
  split at h
  · rename_i o ho
    obtain rfl := Option.some.inj h
    rw [ho]
    cases o <;> first | rfl | (cases ji <;> rfl)
  · cases h
  · cases h

end Sys2Proof.Machine
end

