-- ==== Sys2Proof/Laws/State.lean ====
section
/-! SUPPORT. One lemma per field per update of the state: what each named update leaves as it was, and what it writes. -/

namespace Sys2Proof.Machine

/-! ### Latches -/

@[simp] theorem Latches.get_set_same (l : Latches) (S : Stage) (v : Latch) : (l.set S v).get S = v := by
  cases S <;> rfl

theorem Latches.get_set (l : Latches) (S T : Stage) (v : Latch) :
    (l.set S v).get T = if T = S then v else l.get T := by
  cases S <;> cases T <;> rfl

@[simp] theorem State.latch_setLatch_same (s : State) (S : Stage) (v : Latch) : (s.setLatch S v).latch S = v :=
  Latches.get_set_same s.latches S v

theorem State.latch_setLatch (s : State) (S T : Stage) (v : Latch) :
    (s.setLatch S v).latch T = if T = S then v else s.latch T :=
  Latches.get_set s.latches S T v

theorem State.latch_setLatch_ne (s : State) {S T : Stage} (v : Latch) (h : T ≠ S) :
    (s.setLatch S v).latch T = s.latch T := by
  rw [State.latch_setLatch, if_neg h]

@[simp] theorem State.own_setOwn (s : State) (v : Latch) : (s.setOwn v).own = v :=
  Latches.get_set_same s.latches s.stage v

/-! ### What an update leaves as it was -/

/-! `State.setLatch` writes only: latches. -/

@[simp] theorem State.setLatch_x (s : State) (S : Stage) (v : Latch) : (s.setLatch S v).x = s.x := rfl
@[simp] theorem State.setLatch_valid (s : State) (S : Stage) (v : Latch) : (s.setLatch S v).valid = s.valid := rfl
@[simp] theorem State.setLatch_pc (s : State) (S : Stage) (v : Latch) : (s.setLatch S v).pc = s.pc := rfl
@[simp] theorem State.setLatch_z (s : State) (S : Stage) (v : Latch) : (s.setLatch S v).z = s.z := rfl
@[simp] theorem State.setLatch_clock (s : State) (S : Stage) (v : Latch) : (s.setLatch S v).clock = s.clock := rfl
@[simp] theorem State.setLatch_completed (s : State) (S : Stage) (v : Latch) : (s.setLatch S v).completed = s.completed := rfl
@[simp] theorem State.setLatch_programSize (s : State) (S : Stage) (v : Latch) : (s.setLatch S v).programSize = s.programSize := rfl
@[simp] theorem State.setLatch_bstall (s : State) (S : Stage) (v : Latch) : (s.setLatch S v).bstall = s.bstall := rfl
@[simp] theorem State.setLatch_brPending (s : State) (S : Stage) (v : Latch) : (s.setLatch S v).brPending = s.brPending := rfl
@[simp] theorem State.setLatch_brTarget (s : State) (S : Stage) (v : Latch) : (s.setLatch S v).brTarget = s.brTarget := rfl
@[simp] theorem State.setLatch_jmpPending (s : State) (S : Stage) (v : Latch) : (s.setLatch S v).jmpPending = s.jmpPending := rfl
@[simp] theorem State.setLatch_jmpAddr (s : State) (S : Stage) (v : Latch) : (s.setLatch S v).jmpAddr = s.jmpAddr := rfl
@[simp] theorem State.setLatch_haltFlag (s : State) (S : Stage) (v : Latch) : (s.setLatch S v).haltFlag = s.haltFlag := rfl
@[simp] theorem State.setLatch_status (s : State) (S : Stage) (v : Latch) : (s.setLatch S v).status = s.status := rfl
@[simp] theorem State.setLatch_flushedNow (s : State) (S : Stage) (v : Latch) : (s.setLatch S v).flushedNow = s.flushedNow := rfl
@[simp] theorem State.setLatch_dmem (s : State) (S : Stage) (v : Latch) : (s.setLatch S v).dmem = s.dmem := rfl
@[simp] theorem State.setLatch_cfg (s : State) (S : Stage) (v : Latch) : (s.setLatch S v).cfg = s.cfg := rfl
@[simp] theorem State.setLatch_stage (s : State) (S : Stage) (v : Latch) : (s.setLatch S v).stage = s.stage := rfl

/-! `State.setOwn` writes only: latches. -/

@[simp] theorem State.setOwn_x (s : State) (v : Latch) : (s.setOwn v).x = s.x := rfl
@[simp] theorem State.setOwn_valid (s : State) (v : Latch) : (s.setOwn v).valid = s.valid := rfl
@[simp] theorem State.setOwn_pc (s : State) (v : Latch) : (s.setOwn v).pc = s.pc := rfl
@[simp] theorem State.setOwn_z (s : State) (v : Latch) : (s.setOwn v).z = s.z := rfl
@[simp] theorem State.setOwn_clock (s : State) (v : Latch) : (s.setOwn v).clock = s.clock := rfl
@[simp] theorem State.setOwn_completed (s : State) (v : Latch) : (s.setOwn v).completed = s.completed := rfl
@[simp] theorem State.setOwn_programSize (s : State) (v : Latch) : (s.setOwn v).programSize = s.programSize := rfl
@[simp] theorem State.setOwn_bstall (s : State) (v : Latch) : (s.setOwn v).bstall = s.bstall := rfl
@[simp] theorem State.setOwn_brPending (s : State) (v : Latch) : (s.setOwn v).brPending = s.brPending := rfl
@[simp] theorem State.setOwn_brTarget (s : State) (v : Latch) : (s.setOwn v).brTarget = s.brTarget := rfl
@[simp] theorem State.setOwn_jmpPending (s : State) (v : Latch) : (s.setOwn v).jmpPending = s.jmpPending := rfl
@[simp] theorem State.setOwn_jmpAddr (s : State) (v : Latch) : (s.setOwn v).jmpAddr = s.jmpAddr := rfl
@[simp] theorem State.setOwn_haltFlag (s : State) (v : Latch) : (s.setOwn v).haltFlag = s.haltFlag := rfl
@[simp] theorem State.setOwn_status (s : State) (v : Latch) : (s.setOwn v).status = s.status := rfl
@[simp] theorem State.setOwn_flushedNow (s : State) (v : Latch) : (s.setOwn v).flushedNow = s.flushedNow := rfl
@[simp] theorem State.setOwn_dmem (s : State) (v : Latch) : (s.setOwn v).dmem = s.dmem := rfl
@[simp] theorem State.setOwn_cfg (s : State) (v : Latch) : (s.setOwn v).cfg = s.cfg := rfl
@[simp] theorem State.setOwn_stage (s : State) (v : Latch) : (s.setOwn v).stage = s.stage := rfl

/-! `State.writeReg` writes only: x. -/

@[simp] theorem State.writeReg_valid (s : State) (r : Nat) (v : Int) : (s.writeReg r v).valid = s.valid := rfl
@[simp] theorem State.writeReg_pc (s : State) (r : Nat) (v : Int) : (s.writeReg r v).pc = s.pc := rfl
@[simp] theorem State.writeReg_z (s : State) (r : Nat) (v : Int) : (s.writeReg r v).z = s.z := rfl
@[simp] theorem State.writeReg_clock (s : State) (r : Nat) (v : Int) : (s.writeReg r v).clock = s.clock := rfl
@[simp] theorem State.writeReg_completed (s : State) (r : Nat) (v : Int) : (s.writeReg r v).completed = s.completed := rfl
@[simp] theorem State.writeReg_programSize (s : State) (r : Nat) (v : Int) : (s.writeReg r v).programSize = s.programSize := rfl
@[simp] theorem State.writeReg_bstall (s : State) (r : Nat) (v : Int) : (s.writeReg r v).bstall = s.bstall := rfl
@[simp] theorem State.writeReg_brPending (s : State) (r : Nat) (v : Int) : (s.writeReg r v).brPending = s.brPending := rfl
@[simp] theorem State.writeReg_brTarget (s : State) (r : Nat) (v : Int) : (s.writeReg r v).brTarget = s.brTarget := rfl
@[simp] theorem State.writeReg_jmpPending (s : State) (r : Nat) (v : Int) : (s.writeReg r v).jmpPending = s.jmpPending := rfl
@[simp] theorem State.writeReg_jmpAddr (s : State) (r : Nat) (v : Int) : (s.writeReg r v).jmpAddr = s.jmpAddr := rfl
@[simp] theorem State.writeReg_haltFlag (s : State) (r : Nat) (v : Int) : (s.writeReg r v).haltFlag = s.haltFlag := rfl
@[simp] theorem State.writeReg_status (s : State) (r : Nat) (v : Int) : (s.writeReg r v).status = s.status := rfl
@[simp] theorem State.writeReg_flushedNow (s : State) (r : Nat) (v : Int) : (s.writeReg r v).flushedNow = s.flushedNow := rfl
@[simp] theorem State.writeReg_latches (s : State) (r : Nat) (v : Int) : (s.writeReg r v).latches = s.latches := rfl
@[simp] theorem State.writeReg_dmem (s : State) (r : Nat) (v : Int) : (s.writeReg r v).dmem = s.dmem := rfl
@[simp] theorem State.writeReg_cfg (s : State) (r : Nat) (v : Int) : (s.writeReg r v).cfg = s.cfg := rfl
@[simp] theorem State.writeReg_stage (s : State) (r : Nat) (v : Int) : (s.writeReg r v).stage = s.stage := rfl

/-! `State.setValid` writes only: valid. -/

@[simp] theorem State.setValid_x (s : State) (r : Nat) (b : Bool) : (s.setValid r b).x = s.x := rfl
@[simp] theorem State.setValid_pc (s : State) (r : Nat) (b : Bool) : (s.setValid r b).pc = s.pc := rfl
@[simp] theorem State.setValid_z (s : State) (r : Nat) (b : Bool) : (s.setValid r b).z = s.z := rfl
@[simp] theorem State.setValid_clock (s : State) (r : Nat) (b : Bool) : (s.setValid r b).clock = s.clock := rfl
@[simp] theorem State.setValid_completed (s : State) (r : Nat) (b : Bool) : (s.setValid r b).completed = s.completed := rfl
@[simp] theorem State.setValid_programSize (s : State) (r : Nat) (b : Bool) : (s.setValid r b).programSize = s.programSize := rfl
@[simp] theorem State.setValid_bstall (s : State) (r : Nat) (b : Bool) : (s.setValid r b).bstall = s.bstall := rfl
@[simp] theorem State.setValid_brPending (s : State) (r : Nat) (b : Bool) : (s.setValid r b).brPending = s.brPending := rfl
@[simp] theorem State.setValid_brTarget (s : State) (r : Nat) (b : Bool) : (s.setValid r b).brTarget = s.brTarget := rfl
@[simp] theorem State.setValid_jmpPending (s : State) (r : Nat) (b : Bool) : (s.setValid r b).jmpPending = s.jmpPending := rfl
@[simp] theorem State.setValid_jmpAddr (s : State) (r : Nat) (b : Bool) : (s.setValid r b).jmpAddr = s.jmpAddr := rfl
@[simp] theorem State.setValid_haltFlag (s : State) (r : Nat) (b : Bool) : (s.setValid r b).haltFlag = s.haltFlag := rfl
@[simp] theorem State.setValid_status (s : State) (r : Nat) (b : Bool) : (s.setValid r b).status = s.status := rfl
@[simp] theorem State.setValid_flushedNow (s : State) (r : Nat) (b : Bool) : (s.setValid r b).flushedNow = s.flushedNow := rfl
@[simp] theorem State.setValid_latches (s : State) (r : Nat) (b : Bool) : (s.setValid r b).latches = s.latches := rfl
@[simp] theorem State.setValid_dmem (s : State) (r : Nat) (b : Bool) : (s.setValid r b).dmem = s.dmem := rfl
@[simp] theorem State.setValid_cfg (s : State) (r : Nat) (b : Bool) : (s.setValid r b).cfg = s.cfg := rfl
@[simp] theorem State.setValid_stage (s : State) (r : Nat) (b : Bool) : (s.setValid r b).stage = s.stage := rfl

/-! `scoreboardRelease` writes only: valid. -/

@[simp] theorem scoreboardRelease_x (s : State) (rd : Int) (r : Nat) : (scoreboardRelease rd r s).x = s.x := by unfold scoreboardRelease; split <;> rfl
@[simp] theorem scoreboardRelease_pc (s : State) (rd : Int) (r : Nat) : (scoreboardRelease rd r s).pc = s.pc := by unfold scoreboardRelease; split <;> rfl
@[simp] theorem scoreboardRelease_z (s : State) (rd : Int) (r : Nat) : (scoreboardRelease rd r s).z = s.z := by unfold scoreboardRelease; split <;> rfl
@[simp] theorem scoreboardRelease_clock (s : State) (rd : Int) (r : Nat) : (scoreboardRelease rd r s).clock = s.clock := by unfold scoreboardRelease; split <;> rfl
@[simp] theorem scoreboardRelease_completed (s : State) (rd : Int) (r : Nat) : (scoreboardRelease rd r s).completed = s.completed := by unfold scoreboardRelease; split <;> rfl
@[simp] theorem scoreboardRelease_programSize (s : State) (rd : Int) (r : Nat) : (scoreboardRelease rd r s).programSize = s.programSize := by unfold scoreboardRelease; split <;> rfl
@[simp] theorem scoreboardRelease_bstall (s : State) (rd : Int) (r : Nat) : (scoreboardRelease rd r s).bstall = s.bstall := by unfold scoreboardRelease; split <;> rfl
@[simp] theorem scoreboardRelease_brPending (s : State) (rd : Int) (r : Nat) : (scoreboardRelease rd r s).brPending = s.brPending := by unfold scoreboardRelease; split <;> rfl
@[simp] theorem scoreboardRelease_brTarget (s : State) (rd : Int) (r : Nat) : (scoreboardRelease rd r s).brTarget = s.brTarget := by unfold scoreboardRelease; split <;> rfl
@[simp] theorem scoreboardRelease_jmpPending (s : State) (rd : Int) (r : Nat) : (scoreboardRelease rd r s).jmpPending = s.jmpPending := by unfold scoreboardRelease; split <;> rfl
@[simp] theorem scoreboardRelease_jmpAddr (s : State) (rd : Int) (r : Nat) : (scoreboardRelease rd r s).jmpAddr = s.jmpAddr := by unfold scoreboardRelease; split <;> rfl
@[simp] theorem scoreboardRelease_haltFlag (s : State) (rd : Int) (r : Nat) : (scoreboardRelease rd r s).haltFlag = s.haltFlag := by unfold scoreboardRelease; split <;> rfl
@[simp] theorem scoreboardRelease_status (s : State) (rd : Int) (r : Nat) : (scoreboardRelease rd r s).status = s.status := by unfold scoreboardRelease; split <;> rfl
@[simp] theorem scoreboardRelease_flushedNow (s : State) (rd : Int) (r : Nat) : (scoreboardRelease rd r s).flushedNow = s.flushedNow := by unfold scoreboardRelease; split <;> rfl
@[simp] theorem scoreboardRelease_latches (s : State) (rd : Int) (r : Nat) : (scoreboardRelease rd r s).latches = s.latches := by unfold scoreboardRelease; split <;> rfl
@[simp] theorem scoreboardRelease_dmem (s : State) (rd : Int) (r : Nat) : (scoreboardRelease rd r s).dmem = s.dmem := by unfold scoreboardRelease; split <;> rfl
@[simp] theorem scoreboardRelease_cfg (s : State) (rd : Int) (r : Nat) : (scoreboardRelease rd r s).cfg = s.cfg := by unfold scoreboardRelease; split <;> rfl
@[simp] theorem scoreboardRelease_stage (s : State) (rd : Int) (r : Nat) : (scoreboardRelease rd r s).stage = s.stage := by unfold scoreboardRelease; split <;> rfl

/-! `setBuffer` writes only: latches. -/

@[simp] theorem setBuffer_x (s : State) (v : Int) : (setBuffer v s).x = s.x := rfl
@[simp] theorem setBuffer_valid (s : State) (v : Int) : (setBuffer v s).valid = s.valid := rfl
@[simp] theorem setBuffer_pc (s : State) (v : Int) : (setBuffer v s).pc = s.pc := rfl
@[simp] theorem setBuffer_z (s : State) (v : Int) : (setBuffer v s).z = s.z := rfl
@[simp] theorem setBuffer_clock (s : State) (v : Int) : (setBuffer v s).clock = s.clock := rfl
@[simp] theorem setBuffer_completed (s : State) (v : Int) : (setBuffer v s).completed = s.completed := rfl
@[simp] theorem setBuffer_programSize (s : State) (v : Int) : (setBuffer v s).programSize = s.programSize := rfl
@[simp] theorem setBuffer_bstall (s : State) (v : Int) : (setBuffer v s).bstall = s.bstall := rfl
@[simp] theorem setBuffer_brPending (s : State) (v : Int) : (setBuffer v s).brPending = s.brPending := rfl
@[simp] theorem setBuffer_brTarget (s : State) (v : Int) : (setBuffer v s).brTarget = s.brTarget := rfl
@[simp] theorem setBuffer_jmpPending (s : State) (v : Int) : (setBuffer v s).jmpPending = s.jmpPending := rfl
@[simp] theorem setBuffer_jmpAddr (s : State) (v : Int) : (setBuffer v s).jmpAddr = s.jmpAddr := rfl
@[simp] theorem setBuffer_haltFlag (s : State) (v : Int) : (setBuffer v s).haltFlag = s.haltFlag := rfl
@[simp] theorem setBuffer_status (s : State) (v : Int) : (setBuffer v s).status = s.status := rfl
@[simp] theorem setBuffer_flushedNow (s : State) (v : Int) : (setBuffer v s).flushedNow = s.flushedNow := rfl
@[simp] theorem setBuffer_dmem (s : State) (v : Int) : (setBuffer v s).dmem = s.dmem := rfl
@[simp] theorem setBuffer_cfg (s : State) (v : Int) : (setBuffer v s).cfg = s.cfg := rfl
@[simp] theorem setBuffer_stage (s : State) (v : Int) : (setBuffer v s).stage = s.stage := rfl

/-! `setMemAddress` writes only: latches. -/

@[simp] theorem setMemAddress_x (s : State) (v : Int) : (setMemAddress v s).x = s.x := rfl
@[simp] theorem setMemAddress_valid (s : State) (v : Int) : (setMemAddress v s).valid = s.valid := rfl
@[simp] theorem setMemAddress_pc (s : State) (v : Int) : (setMemAddress v s).pc = s.pc := rfl
@[simp] theorem setMemAddress_z (s : State) (v : Int) : (setMemAddress v s).z = s.z := rfl
@[simp] theorem setMemAddress_clock (s : State) (v : Int) : (setMemAddress v s).clock = s.clock := rfl
@[simp] theorem setMemAddress_completed (s : State) (v : Int) : (setMemAddress v s).completed = s.completed := rfl
@[simp] theorem setMemAddress_programSize (s : State) (v : Int) : (setMemAddress v s).programSize = s.programSize := rfl
@[simp] theorem setMemAddress_bstall (s : State) (v : Int) : (setMemAddress v s).bstall = s.bstall := rfl
@[simp] theorem setMemAddress_brPending (s : State) (v : Int) : (setMemAddress v s).brPending = s.brPending := rfl
@[simp] theorem setMemAddress_brTarget (s : State) (v : Int) : (setMemAddress v s).brTarget = s.brTarget := rfl
@[simp] theorem setMemAddress_jmpPending (s : State) (v : Int) : (setMemAddress v s).jmpPending = s.jmpPending := rfl
@[simp] theorem setMemAddress_jmpAddr (s : State) (v : Int) : (setMemAddress v s).jmpAddr = s.jmpAddr := rfl
@[simp] theorem setMemAddress_haltFlag (s : State) (v : Int) : (setMemAddress v s).haltFlag = s.haltFlag := rfl
@[simp] theorem setMemAddress_status (s : State) (v : Int) : (setMemAddress v s).status = s.status := rfl
@[simp] theorem setMemAddress_flushedNow (s : State) (v : Int) : (setMemAddress v s).flushedNow = s.flushedNow := rfl
@[simp] theorem setMemAddress_dmem (s : State) (v : Int) : (setMemAddress v s).dmem = s.dmem := rfl
@[simp] theorem setMemAddress_cfg (s : State) (v : Int) : (setMemAddress v s).cfg = s.cfg := rfl
@[simp] theorem setMemAddress_stage (s : State) (v : Int) : (setMemAddress v s).stage = s.stage := rfl

/-! `flush` writes only: latches, jmpPending, flushedNow. -/

@[simp] theorem flush_x (s : State) : (flush s).x = s.x := rfl
@[simp] theorem flush_valid (s : State) : (flush s).valid = s.valid := rfl
@[simp] theorem flush_pc (s : State) : (flush s).pc = s.pc := rfl
@[simp] theorem flush_z (s : State) : (flush s).z = s.z := rfl
@[simp] theorem flush_clock (s : State) : (flush s).clock = s.clock := rfl
@[simp] theorem flush_completed (s : State) : (flush s).completed = s.completed := rfl
@[simp] theorem flush_programSize (s : State) : (flush s).programSize = s.programSize := rfl
@[simp] theorem flush_bstall (s : State) : (flush s).bstall = s.bstall := rfl
@[simp] theorem flush_brPending (s : State) : (flush s).brPending = s.brPending := rfl
@[simp] theorem flush_brTarget (s : State) : (flush s).brTarget = s.brTarget := rfl
@[simp] theorem flush_jmpAddr (s : State) : (flush s).jmpAddr = s.jmpAddr := rfl
@[simp] theorem flush_haltFlag (s : State) : (flush s).haltFlag = s.haltFlag := rfl
@[simp] theorem flush_status (s : State) : (flush s).status = s.status := rfl
@[simp] theorem flush_dmem (s : State) : (flush s).dmem = s.dmem := rfl
@[simp] theorem flush_cfg (s : State) : (flush s).cfg = s.cfg := rfl
@[simp] theorem flush_stage (s : State) : (flush s).stage = s.stage := rfl

/-! `clearZ` writes only: z. -/

@[simp] theorem clearZ_x (s : State) : (clearZ s).x = s.x := rfl
@[simp] theorem clearZ_valid (s : State) : (clearZ s).valid = s.valid := rfl
@[simp] theorem clearZ_pc (s : State) : (clearZ s).pc = s.pc := rfl
@[simp] theorem clearZ_clock (s : State) : (clearZ s).clock = s.clock := rfl
@[simp] theorem clearZ_completed (s : State) : (clearZ s).completed = s.completed := rfl
@[simp] theorem clearZ_programSize (s : State) : (clearZ s).programSize = s.programSize := rfl
@[simp] theorem clearZ_bstall (s : State) : (clearZ s).bstall = s.bstall := rfl
@[simp] theorem clearZ_brPending (s : State) : (clearZ s).brPending = s.brPending := rfl
@[simp] theorem clearZ_brTarget (s : State) : (clearZ s).brTarget = s.brTarget := rfl
@[simp] theorem clearZ_jmpPending (s : State) : (clearZ s).jmpPending = s.jmpPending := rfl
@[simp] theorem clearZ_jmpAddr (s : State) : (clearZ s).jmpAddr = s.jmpAddr := rfl
@[simp] theorem clearZ_haltFlag (s : State) : (clearZ s).haltFlag = s.haltFlag := rfl
@[simp] theorem clearZ_status (s : State) : (clearZ s).status = s.status := rfl
@[simp] theorem clearZ_flushedNow (s : State) : (clearZ s).flushedNow = s.flushedNow := rfl
@[simp] theorem clearZ_latches (s : State) : (clearZ s).latches = s.latches := rfl
@[simp] theorem clearZ_dmem (s : State) : (clearZ s).dmem = s.dmem := rfl
@[simp] theorem clearZ_cfg (s : State) : (clearZ s).cfg = s.cfg := rfl
@[simp] theorem clearZ_stage (s : State) : (clearZ s).stage = s.stage := rfl

/-! `forward` writes only: latches. -/

@[simp] theorem forward_x (s : State) : (forward s).x = s.x := by unfold forward; split <;> rfl
@[simp] theorem forward_valid (s : State) : (forward s).valid = s.valid := by unfold forward; split <;> rfl
@[simp] theorem forward_pc (s : State) : (forward s).pc = s.pc := by unfold forward; split <;> rfl
@[simp] theorem forward_z (s : State) : (forward s).z = s.z := by unfold forward; split <;> rfl
@[simp] theorem forward_clock (s : State) : (forward s).clock = s.clock := by unfold forward; split <;> rfl
@[simp] theorem forward_completed (s : State) : (forward s).completed = s.completed := by unfold forward; split <;> rfl
@[simp] theorem forward_programSize (s : State) : (forward s).programSize = s.programSize := by unfold forward; split <;> rfl
@[simp] theorem forward_bstall (s : State) : (forward s).bstall = s.bstall := by unfold forward; split <;> rfl
@[simp] theorem forward_brPending (s : State) : (forward s).brPending = s.brPending := by unfold forward; split <;> rfl
@[simp] theorem forward_brTarget (s : State) : (forward s).brTarget = s.brTarget := by unfold forward; split <;> rfl
@[simp] theorem forward_jmpPending (s : State) : (forward s).jmpPending = s.jmpPending := by unfold forward; split <;> rfl
@[simp] theorem forward_jmpAddr (s : State) : (forward s).jmpAddr = s.jmpAddr := by unfold forward; split <;> rfl
@[simp] theorem forward_haltFlag (s : State) : (forward s).haltFlag = s.haltFlag := by unfold forward; split <;> rfl
@[simp] theorem forward_status (s : State) : (forward s).status = s.status := by unfold forward; split <;> rfl
@[simp] theorem forward_flushedNow (s : State) : (forward s).flushedNow = s.flushedNow := by unfold forward; split <;> rfl
@[simp] theorem forward_dmem (s : State) : (forward s).dmem = s.dmem := by unfold forward; split <;> rfl
@[simp] theorem forward_cfg (s : State) : (forward s).cfg = s.cfg := by unfold forward; split <;> rfl
@[simp] theorem forward_stage (s : State) : (forward s).stage = s.stage := by unfold forward; split <;> rfl

/-! `issue` writes only: latches. -/

@[simp] theorem issue_x (s : State) : (issue s).x = s.x := rfl
@[simp] theorem issue_valid (s : State) : (issue s).valid = s.valid := rfl
@[simp] theorem issue_pc (s : State) : (issue s).pc = s.pc := rfl
@[simp] theorem issue_z (s : State) : (issue s).z = s.z := rfl
@[simp] theorem issue_clock (s : State) : (issue s).clock = s.clock := rfl
@[simp] theorem issue_completed (s : State) : (issue s).completed = s.completed := rfl
@[simp] theorem issue_programSize (s : State) : (issue s).programSize = s.programSize := rfl
@[simp] theorem issue_bstall (s : State) : (issue s).bstall = s.bstall := rfl
@[simp] theorem issue_brPending (s : State) : (issue s).brPending = s.brPending := rfl
@[simp] theorem issue_brTarget (s : State) : (issue s).brTarget = s.brTarget := rfl
@[simp] theorem issue_jmpPending (s : State) : (issue s).jmpPending = s.jmpPending := rfl
@[simp] theorem issue_jmpAddr (s : State) : (issue s).jmpAddr = s.jmpAddr := rfl
@[simp] theorem issue_haltFlag (s : State) : (issue s).haltFlag = s.haltFlag := rfl
@[simp] theorem issue_status (s : State) : (issue s).status = s.status := rfl
@[simp] theorem issue_flushedNow (s : State) : (issue s).flushedNow = s.flushedNow := rfl
@[simp] theorem issue_dmem (s : State) : (issue s).dmem = s.dmem := rfl
@[simp] theorem issue_cfg (s : State) : (issue s).cfg = s.cfg := rfl
@[simp] theorem issue_stage (s : State) : (issue s).stage = s.stage := rfl

/-! `handToDecode` writes only: latches, pc. -/

@[simp] theorem handToDecode_x (s : State) : (handToDecode s).x = s.x := by unfold handToDecode; split <;> rfl
@[simp] theorem handToDecode_valid (s : State) : (handToDecode s).valid = s.valid := by unfold handToDecode; split <;> rfl
@[simp] theorem handToDecode_z (s : State) : (handToDecode s).z = s.z := by unfold handToDecode; split <;> rfl
@[simp] theorem handToDecode_clock (s : State) : (handToDecode s).clock = s.clock := by unfold handToDecode; split <;> rfl
@[simp] theorem handToDecode_completed (s : State) : (handToDecode s).completed = s.completed := by unfold handToDecode; split <;> rfl
@[simp] theorem handToDecode_programSize (s : State) : (handToDecode s).programSize = s.programSize := by unfold handToDecode; split <;> rfl
@[simp] theorem handToDecode_bstall (s : State) : (handToDecode s).bstall = s.bstall := by unfold handToDecode; split <;> rfl
@[simp] theorem handToDecode_brPending (s : State) : (handToDecode s).brPending = s.brPending := by unfold handToDecode; split <;> rfl
@[simp] theorem handToDecode_brTarget (s : State) : (handToDecode s).brTarget = s.brTarget := by unfold handToDecode; split <;> rfl
@[simp] theorem handToDecode_jmpPending (s : State) : (handToDecode s).jmpPending = s.jmpPending := by unfold handToDecode; split <;> rfl
@[simp] theorem handToDecode_jmpAddr (s : State) : (handToDecode s).jmpAddr = s.jmpAddr := by unfold handToDecode; split <;> rfl
@[simp] theorem handToDecode_haltFlag (s : State) : (handToDecode s).haltFlag = s.haltFlag := by unfold handToDecode; split <;> rfl
@[simp] theorem handToDecode_status (s : State) : (handToDecode s).status = s.status := by unfold handToDecode; split <;> rfl
@[simp] theorem handToDecode_flushedNow (s : State) : (handToDecode s).flushedNow = s.flushedNow := by unfold handToDecode; split <;> rfl
@[simp] theorem handToDecode_dmem (s : State) : (handToDecode s).dmem = s.dmem := by unfold handToDecode; split <;> rfl
@[simp] theorem handToDecode_cfg (s : State) : (handToDecode s).cfg = s.cfg := by unfold handToDecode; split <;> rfl
@[simp] theorem handToDecode_stage (s : State) : (handToDecode s).stage = s.stage := by unfold handToDecode; split <;> rfl

/-! `countRetirement` writes only: completed. -/

@[simp] theorem countRetirement_x (s : State) (c : Bool) : (countRetirement c s).x = s.x := by unfold countRetirement; split <;> rfl
@[simp] theorem countRetirement_valid (s : State) (c : Bool) : (countRetirement c s).valid = s.valid := by unfold countRetirement; split <;> rfl
@[simp] theorem countRetirement_pc (s : State) (c : Bool) : (countRetirement c s).pc = s.pc := by unfold countRetirement; split <;> rfl
@[simp] theorem countRetirement_z (s : State) (c : Bool) : (countRetirement c s).z = s.z := by unfold countRetirement; split <;> rfl
@[simp] theorem countRetirement_clock (s : State) (c : Bool) : (countRetirement c s).clock = s.clock := by unfold countRetirement; split <;> rfl
@[simp] theorem countRetirement_programSize (s : State) (c : Bool) : (countRetirement c s).programSize = s.programSize := by unfold countRetirement; split <;> rfl
@[simp] theorem countRetirement_bstall (s : State) (c : Bool) : (countRetirement c s).bstall = s.bstall := by unfold countRetirement; split <;> rfl
@[simp] theorem countRetirement_brPending (s : State) (c : Bool) : (countRetirement c s).brPending = s.brPending := by unfold countRetirement; split <;> rfl
@[simp] theorem countRetirement_brTarget (s : State) (c : Bool) : (countRetirement c s).brTarget = s.brTarget := by unfold countRetirement; split <;> rfl
@[simp] theorem countRetirement_jmpPending (s : State) (c : Bool) : (countRetirement c s).jmpPending = s.jmpPending := by unfold countRetirement; split <;> rfl
@[simp] theorem countRetirement_jmpAddr (s : State) (c : Bool) : (countRetirement c s).jmpAddr = s.jmpAddr := by unfold countRetirement; split <;> rfl
@[simp] theorem countRetirement_haltFlag (s : State) (c : Bool) : (countRetirement c s).haltFlag = s.haltFlag := by unfold countRetirement; split <;> rfl
@[simp] theorem countRetirement_status (s : State) (c : Bool) : (countRetirement c s).status = s.status := by unfold countRetirement; split <;> rfl
@[simp] theorem countRetirement_flushedNow (s : State) (c : Bool) : (countRetirement c s).flushedNow = s.flushedNow := by unfold countRetirement; split <;> rfl
@[simp] theorem countRetirement_latches (s : State) (c : Bool) : (countRetirement c s).latches = s.latches := by unfold countRetirement; split <;> rfl
@[simp] theorem countRetirement_dmem (s : State) (c : Bool) : (countRetirement c s).dmem = s.dmem := by unfold countRetirement; split <;> rfl
@[simp] theorem countRetirement_cfg (s : State) (c : Bool) : (countRetirement c s).cfg = s.cfg := by unfold countRetirement; split <;> rfl
@[simp] theorem countRetirement_stage (s : State) (c : Bool) : (countRetirement c s).stage = s.stage := by unfold countRetirement; split <;> rfl

/-! `gateAndRead` writes only: latches. -/

@[simp] theorem gateAndRead_x (s : State) (srcs : List (ValueSlot × Nat)) : (gateAndRead srcs s).x = s.x := by unfold gateAndRead; dsimp only; split <;> rfl
@[simp] theorem gateAndRead_valid (s : State) (srcs : List (ValueSlot × Nat)) : (gateAndRead srcs s).valid = s.valid := by unfold gateAndRead; dsimp only; split <;> rfl
@[simp] theorem gateAndRead_pc (s : State) (srcs : List (ValueSlot × Nat)) : (gateAndRead srcs s).pc = s.pc := by unfold gateAndRead; dsimp only; split <;> rfl
@[simp] theorem gateAndRead_z (s : State) (srcs : List (ValueSlot × Nat)) : (gateAndRead srcs s).z = s.z := by unfold gateAndRead; dsimp only; split <;> rfl
@[simp] theorem gateAndRead_clock (s : State) (srcs : List (ValueSlot × Nat)) : (gateAndRead srcs s).clock = s.clock := by unfold gateAndRead; dsimp only; split <;> rfl
@[simp] theorem gateAndRead_completed (s : State) (srcs : List (ValueSlot × Nat)) : (gateAndRead srcs s).completed = s.completed := by unfold gateAndRead; dsimp only; split <;> rfl
@[simp] theorem gateAndRead_programSize (s : State) (srcs : List (ValueSlot × Nat)) : (gateAndRead srcs s).programSize = s.programSize := by unfold gateAndRead; dsimp only; split <;> rfl
@[simp] theorem gateAndRead_bstall (s : State) (srcs : List (ValueSlot × Nat)) : (gateAndRead srcs s).bstall = s.bstall := by unfold gateAndRead; dsimp only; split <;> rfl
@[simp] theorem gateAndRead_brPending (s : State) (srcs : List (ValueSlot × Nat)) : (gateAndRead srcs s).brPending = s.brPending := by unfold gateAndRead; dsimp only; split <;> rfl
@[simp] theorem gateAndRead_brTarget (s : State) (srcs : List (ValueSlot × Nat)) : (gateAndRead srcs s).brTarget = s.brTarget := by unfold gateAndRead; dsimp only; split <;> rfl
@[simp] theorem gateAndRead_jmpPending (s : State) (srcs : List (ValueSlot × Nat)) : (gateAndRead srcs s).jmpPending = s.jmpPending := by unfold gateAndRead; dsimp only; split <;> rfl
@[simp] theorem gateAndRead_jmpAddr (s : State) (srcs : List (ValueSlot × Nat)) : (gateAndRead srcs s).jmpAddr = s.jmpAddr := by unfold gateAndRead; dsimp only; split <;> rfl
@[simp] theorem gateAndRead_haltFlag (s : State) (srcs : List (ValueSlot × Nat)) : (gateAndRead srcs s).haltFlag = s.haltFlag := by unfold gateAndRead; dsimp only; split <;> rfl
@[simp] theorem gateAndRead_status (s : State) (srcs : List (ValueSlot × Nat)) : (gateAndRead srcs s).status = s.status := by unfold gateAndRead; dsimp only; split <;> rfl
@[simp] theorem gateAndRead_flushedNow (s : State) (srcs : List (ValueSlot × Nat)) : (gateAndRead srcs s).flushedNow = s.flushedNow := by unfold gateAndRead; dsimp only; split <;> rfl
@[simp] theorem gateAndRead_dmem (s : State) (srcs : List (ValueSlot × Nat)) : (gateAndRead srcs s).dmem = s.dmem := by unfold gateAndRead; dsimp only; split <;> rfl
@[simp] theorem gateAndRead_cfg (s : State) (srcs : List (ValueSlot × Nat)) : (gateAndRead srcs s).cfg = s.cfg := by unfold gateAndRead; dsimp only; split <;> rfl
@[simp] theorem gateAndRead_stage (s : State) (srcs : List (ValueSlot × Nat)) : (gateAndRead srcs s).stage = s.stage := by unfold gateAndRead; dsimp only; split <;> rfl

/-! `neverStalls` writes only: latches. -/

@[simp] theorem neverStalls_x (s : State) : (neverStalls s).x = s.x := rfl
@[simp] theorem neverStalls_valid (s : State) : (neverStalls s).valid = s.valid := rfl
@[simp] theorem neverStalls_pc (s : State) : (neverStalls s).pc = s.pc := rfl
@[simp] theorem neverStalls_z (s : State) : (neverStalls s).z = s.z := rfl
@[simp] theorem neverStalls_clock (s : State) : (neverStalls s).clock = s.clock := rfl
@[simp] theorem neverStalls_completed (s : State) : (neverStalls s).completed = s.completed := rfl
@[simp] theorem neverStalls_programSize (s : State) : (neverStalls s).programSize = s.programSize := rfl
@[simp] theorem neverStalls_bstall (s : State) : (neverStalls s).bstall = s.bstall := rfl
@[simp] theorem neverStalls_brPending (s : State) : (neverStalls s).brPending = s.brPending := rfl
@[simp] theorem neverStalls_brTarget (s : State) : (neverStalls s).brTarget = s.brTarget := rfl
@[simp] theorem neverStalls_jmpPending (s : State) : (neverStalls s).jmpPending = s.jmpPending := rfl
@[simp] theorem neverStalls_jmpAddr (s : State) : (neverStalls s).jmpAddr = s.jmpAddr := rfl
@[simp] theorem neverStalls_haltFlag (s : State) : (neverStalls s).haltFlag = s.haltFlag := rfl
@[simp] theorem neverStalls_status (s : State) : (neverStalls s).status = s.status := rfl
@[simp] theorem neverStalls_flushedNow (s : State) : (neverStalls s).flushedNow = s.flushedNow := rfl
@[simp] theorem neverStalls_dmem (s : State) : (neverStalls s).dmem = s.dmem := rfl
@[simp] theorem neverStalls_cfg (s : State) : (neverStalls s).cfg = s.cfg := rfl
@[simp] theorem neverStalls_stage (s : State) : (neverStalls s).stage = s.stage := rfl

/-! `branchBudget` writes only: latches, bstall. -/

@[simp] theorem branchBudget_x (s : State) : (branchBudget s).x = s.x := by unfold branchBudget; dsimp only; split <;> rfl
@[simp] theorem branchBudget_valid (s : State) : (branchBudget s).valid = s.valid := by unfold branchBudget; dsimp only; split <;> rfl
@[simp] theorem branchBudget_pc (s : State) : (branchBudget s).pc = s.pc := by unfold branchBudget; dsimp only; split <;> rfl
@[simp] theorem branchBudget_z (s : State) : (branchBudget s).z = s.z := by unfold branchBudget; dsimp only; split <;> rfl
@[simp] theorem branchBudget_clock (s : State) : (branchBudget s).clock = s.clock := by unfold branchBudget; dsimp only; split <;> rfl
@[simp] theorem branchBudget_completed (s : State) : (branchBudget s).completed = s.completed := by unfold branchBudget; dsimp only; split <;> rfl
@[simp] theorem branchBudget_programSize (s : State) : (branchBudget s).programSize = s.programSize := by unfold branchBudget; dsimp only; split <;> rfl
@[simp] theorem branchBudget_brPending (s : State) : (branchBudget s).brPending = s.brPending := by unfold branchBudget; dsimp only; split <;> rfl
@[simp] theorem branchBudget_brTarget (s : State) : (branchBudget s).brTarget = s.brTarget := by unfold branchBudget; dsimp only; split <;> rfl
@[simp] theorem branchBudget_jmpPending (s : State) : (branchBudget s).jmpPending = s.jmpPending := by unfold branchBudget; dsimp only; split <;> rfl
@[simp] theorem branchBudget_jmpAddr (s : State) : (branchBudget s).jmpAddr = s.jmpAddr := by unfold branchBudget; dsimp only; split <;> rfl
@[simp] theorem branchBudget_haltFlag (s : State) : (branchBudget s).haltFlag = s.haltFlag := by unfold branchBudget; dsimp only; split <;> rfl
@[simp] theorem branchBudget_status (s : State) : (branchBudget s).status = s.status := by unfold branchBudget; dsimp only; split <;> rfl
@[simp] theorem branchBudget_flushedNow (s : State) : (branchBudget s).flushedNow = s.flushedNow := by unfold branchBudget; dsimp only; split <;> rfl
@[simp] theorem branchBudget_dmem (s : State) : (branchBudget s).dmem = s.dmem := by unfold branchBudget; dsimp only; split <;> rfl
@[simp] theorem branchBudget_cfg (s : State) : (branchBudget s).cfg = s.cfg := by unfold branchBudget; dsimp only; split <;> rfl
@[simp] theorem branchBudget_stage (s : State) : (branchBudget s).stage = s.stage := by unfold branchBudget; dsimp only; split <;> rfl

/-! `stageTarget` writes only: brTarget, brPending. -/

@[simp] theorem stageTarget_x (s : State) (imm : Int) : (stageTarget imm s).x = s.x := rfl
@[simp] theorem stageTarget_valid (s : State) (imm : Int) : (stageTarget imm s).valid = s.valid := rfl
@[simp] theorem stageTarget_pc (s : State) (imm : Int) : (stageTarget imm s).pc = s.pc := rfl
@[simp] theorem stageTarget_z (s : State) (imm : Int) : (stageTarget imm s).z = s.z := rfl
@[simp] theorem stageTarget_clock (s : State) (imm : Int) : (stageTarget imm s).clock = s.clock := rfl
@[simp] theorem stageTarget_completed (s : State) (imm : Int) : (stageTarget imm s).completed = s.completed := rfl
@[simp] theorem stageTarget_programSize (s : State) (imm : Int) : (stageTarget imm s).programSize = s.programSize := rfl
@[simp] theorem stageTarget_bstall (s : State) (imm : Int) : (stageTarget imm s).bstall = s.bstall := rfl
@[simp] theorem stageTarget_jmpPending (s : State) (imm : Int) : (stageTarget imm s).jmpPending = s.jmpPending := rfl
@[simp] theorem stageTarget_jmpAddr (s : State) (imm : Int) : (stageTarget imm s).jmpAddr = s.jmpAddr := rfl
@[simp] theorem stageTarget_haltFlag (s : State) (imm : Int) : (stageTarget imm s).haltFlag = s.haltFlag := rfl
@[simp] theorem stageTarget_status (s : State) (imm : Int) : (stageTarget imm s).status = s.status := rfl
@[simp] theorem stageTarget_flushedNow (s : State) (imm : Int) : (stageTarget imm s).flushedNow = s.flushedNow := rfl
@[simp] theorem stageTarget_latches (s : State) (imm : Int) : (stageTarget imm s).latches = s.latches := rfl
@[simp] theorem stageTarget_dmem (s : State) (imm : Int) : (stageTarget imm s).dmem = s.dmem := rfl
@[simp] theorem stageTarget_cfg (s : State) (imm : Int) : (stageTarget imm s).cfg = s.cfg := rfl
@[simp] theorem stageTarget_stage (s : State) (imm : Int) : (stageTarget imm s).stage = s.stage := rfl

/-! `branchCommit` writes only: pc, z, latches, jmpPending, flushedNow, brPending. -/

@[simp] theorem branchCommit_x (s : State) : (branchCommit s).x = s.x := rfl
@[simp] theorem branchCommit_valid (s : State) : (branchCommit s).valid = s.valid := rfl
@[simp] theorem branchCommit_clock (s : State) : (branchCommit s).clock = s.clock := rfl
@[simp] theorem branchCommit_completed (s : State) : (branchCommit s).completed = s.completed := rfl
@[simp] theorem branchCommit_programSize (s : State) : (branchCommit s).programSize = s.programSize := rfl
@[simp] theorem branchCommit_bstall (s : State) : (branchCommit s).bstall = s.bstall := rfl
@[simp] theorem branchCommit_brTarget (s : State) : (branchCommit s).brTarget = s.brTarget := rfl
@[simp] theorem branchCommit_jmpAddr (s : State) : (branchCommit s).jmpAddr = s.jmpAddr := rfl
@[simp] theorem branchCommit_haltFlag (s : State) : (branchCommit s).haltFlag = s.haltFlag := rfl
@[simp] theorem branchCommit_status (s : State) : (branchCommit s).status = s.status := rfl
@[simp] theorem branchCommit_dmem (s : State) : (branchCommit s).dmem = s.dmem := rfl
@[simp] theorem branchCommit_cfg (s : State) : (branchCommit s).cfg = s.cfg := rfl
@[simp] theorem branchCommit_stage (s : State) : (branchCommit s).stage = s.stage := rfl

/-! `jumpRedirect` writes only: pc, latches, jmpAddr, jmpPending. -/

@[simp] theorem jumpRedirect_x (s : State) (imm : Int) : (jumpRedirect imm s).x = s.x := rfl
@[simp] theorem jumpRedirect_valid (s : State) (imm : Int) : (jumpRedirect imm s).valid = s.valid := rfl
@[simp] theorem jumpRedirect_z (s : State) (imm : Int) : (jumpRedirect imm s).z = s.z := rfl
@[simp] theorem jumpRedirect_clock (s : State) (imm : Int) : (jumpRedirect imm s).clock = s.clock := rfl
@[simp] theorem jumpRedirect_completed (s : State) (imm : Int) : (jumpRedirect imm s).completed = s.completed := rfl
@[simp] theorem jumpRedirect_programSize (s : State) (imm : Int) : (jumpRedirect imm s).programSize = s.programSize := rfl
@[simp] theorem jumpRedirect_bstall (s : State) (imm : Int) : (jumpRedirect imm s).bstall = s.bstall := rfl
@[simp] theorem jumpRedirect_brPending (s : State) (imm : Int) : (jumpRedirect imm s).brPending = s.brPending := rfl
@[simp] theorem jumpRedirect_brTarget (s : State) (imm : Int) : (jumpRedirect imm s).brTarget = s.brTarget := rfl
@[simp] theorem jumpRedirect_haltFlag (s : State) (imm : Int) : (jumpRedirect imm s).haltFlag = s.haltFlag := rfl
@[simp] theorem jumpRedirect_status (s : State) (imm : Int) : (jumpRedirect imm s).status = s.status := rfl
@[simp] theorem jumpRedirect_flushedNow (s : State) (imm : Int) : (jumpRedirect imm s).flushedNow = s.flushedNow := rfl
@[simp] theorem jumpRedirect_dmem (s : State) (imm : Int) : (jumpRedirect imm s).dmem = s.dmem := rfl
@[simp] theorem jumpRedirect_cfg (s : State) (imm : Int) : (jumpRedirect imm s).cfg = s.cfg := rfl
@[simp] theorem jumpRedirect_stage (s : State) (imm : Int) : (jumpRedirect imm s).stage = s.stage := rfl

/-! `freezeFetch` writes only: latches, haltFlag. -/

@[simp] theorem freezeFetch_x (s : State) : (freezeFetch s).x = s.x := rfl
@[simp] theorem freezeFetch_valid (s : State) : (freezeFetch s).valid = s.valid := rfl
@[simp] theorem freezeFetch_pc (s : State) : (freezeFetch s).pc = s.pc := rfl
@[simp] theorem freezeFetch_z (s : State) : (freezeFetch s).z = s.z := rfl
@[simp] theorem freezeFetch_clock (s : State) : (freezeFetch s).clock = s.clock := rfl
@[simp] theorem freezeFetch_completed (s : State) : (freezeFetch s).completed = s.completed := rfl
@[simp] theorem freezeFetch_programSize (s : State) : (freezeFetch s).programSize = s.programSize := rfl
@[simp] theorem freezeFetch_bstall (s : State) : (freezeFetch s).bstall = s.bstall := rfl
@[simp] theorem freezeFetch_brPending (s : State) : (freezeFetch s).brPending = s.brPending := rfl
@[simp] theorem freezeFetch_brTarget (s : State) : (freezeFetch s).brTarget = s.brTarget := rfl
@[simp] theorem freezeFetch_jmpPending (s : State) : (freezeFetch s).jmpPending = s.jmpPending := rfl
@[simp] theorem freezeFetch_jmpAddr (s : State) : (freezeFetch s).jmpAddr = s.jmpAddr := rfl
@[simp] theorem freezeFetch_status (s : State) : (freezeFetch s).status = s.status := rfl
@[simp] theorem freezeFetch_flushedNow (s : State) : (freezeFetch s).flushedNow = s.flushedNow := rfl
@[simp] theorem freezeFetch_dmem (s : State) : (freezeFetch s).dmem = s.dmem := rfl
@[simp] theorem freezeFetch_cfg (s : State) : (freezeFetch s).cfg = s.cfg := rfl
@[simp] theorem freezeFetch_stage (s : State) : (freezeFetch s).stage = s.stage := rfl

/-! `applyRedirect` writes only: pc, jmpPending. -/

@[simp] theorem applyRedirect_x (s : State) : (applyRedirect s).x = s.x := by unfold applyRedirect; split <;> rfl
@[simp] theorem applyRedirect_valid (s : State) : (applyRedirect s).valid = s.valid := by unfold applyRedirect; split <;> rfl
@[simp] theorem applyRedirect_z (s : State) : (applyRedirect s).z = s.z := by unfold applyRedirect; split <;> rfl
@[simp] theorem applyRedirect_clock (s : State) : (applyRedirect s).clock = s.clock := by unfold applyRedirect; split <;> rfl
@[simp] theorem applyRedirect_completed (s : State) : (applyRedirect s).completed = s.completed := by unfold applyRedirect; split <;> rfl
@[simp] theorem applyRedirect_programSize (s : State) : (applyRedirect s).programSize = s.programSize := by unfold applyRedirect; split <;> rfl
@[simp] theorem applyRedirect_bstall (s : State) : (applyRedirect s).bstall = s.bstall := by unfold applyRedirect; split <;> rfl
@[simp] theorem applyRedirect_brPending (s : State) : (applyRedirect s).brPending = s.brPending := by unfold applyRedirect; split <;> rfl
@[simp] theorem applyRedirect_brTarget (s : State) : (applyRedirect s).brTarget = s.brTarget := by unfold applyRedirect; split <;> rfl
@[simp] theorem applyRedirect_jmpAddr (s : State) : (applyRedirect s).jmpAddr = s.jmpAddr := by unfold applyRedirect; split <;> rfl
@[simp] theorem applyRedirect_haltFlag (s : State) : (applyRedirect s).haltFlag = s.haltFlag := by unfold applyRedirect; split <;> rfl
@[simp] theorem applyRedirect_status (s : State) : (applyRedirect s).status = s.status := by unfold applyRedirect; split <;> rfl
@[simp] theorem applyRedirect_flushedNow (s : State) : (applyRedirect s).flushedNow = s.flushedNow := by unfold applyRedirect; split <;> rfl
@[simp] theorem applyRedirect_latches (s : State) : (applyRedirect s).latches = s.latches := by unfold applyRedirect; split <;> rfl
@[simp] theorem applyRedirect_dmem (s : State) : (applyRedirect s).dmem = s.dmem := by unfold applyRedirect; split <;> rfl
@[simp] theorem applyRedirect_cfg (s : State) : (applyRedirect s).cfg = s.cfg := by unfold applyRedirect; split <;> rfl
@[simp] theorem applyRedirect_stage (s : State) : (applyRedirect s).stage = s.stage := by unfold applyRedirect; split <;> rfl

/-! ### What an update writes -/

@[simp] theorem State.writeReg_x (s : State) (r : Nat) (v : Int) : (s.writeReg r v).x = s.x.set r v := rfl
@[simp] theorem State.setValid_valid (s : State) (r : Nat) (b : Bool) : (s.setValid r b).valid = s.valid.set r b := rfl
@[simp] theorem clearZ_z (s : State) : (clearZ s).z = false := rfl
@[simp] theorem flush_jmpPending (s : State) : (flush s).jmpPending = false := rfl
@[simp] theorem flush_flushedNow (s : State) : (flush s).flushedNow = true := rfl
@[simp] theorem stageTarget_brPending (s : State) (imm : Int) : (stageTarget imm s).brPending = true := rfl
@[simp] theorem stageTarget_brTarget (s : State) (imm : Int) :
    (stageTarget imm s).brTarget = branchTarget s.cfg s.own.pc imm := rfl
@[simp] theorem branchCommit_pc (s : State) : (branchCommit s).pc = s.brTarget := rfl
@[simp] theorem branchCommit_z (s : State) : (branchCommit s).z = false := rfl
@[simp] theorem branchCommit_brPending (s : State) : (branchCommit s).brPending = false := rfl
@[simp] theorem branchCommit_jmpPending (s : State) : (branchCommit s).jmpPending = false := rfl
@[simp] theorem branchCommit_flushedNow (s : State) : (branchCommit s).flushedNow = true := rfl
@[simp] theorem jumpRedirect_pc (s : State) (imm : Int) :
    (jumpRedirect imm s).pc = jumpTarget s.cfg s.own.rs1Value imm := rfl
@[simp] theorem jumpRedirect_jmpAddr (s : State) (imm : Int) :
    (jumpRedirect imm s).jmpAddr = wrap s.cfg.xlen (jumpTarget s.cfg s.own.rs1Value imm + s.cfg.width) := rfl
@[simp] theorem jumpRedirect_jmpPending (s : State) (imm : Int) : (jumpRedirect imm s).jmpPending = true := rfl
@[simp] theorem freezeFetch_haltFlag (s : State) : (freezeFetch s).haltFlag = true := rfl
@[simp] theorem applyRedirect_jmpPending (s : State) : (applyRedirect s).jmpPending = false := by
  unfold applyRedirect
  split
  · rfl
  · exact eq_false_of_ne_true ‹_›

end Sys2Proof.Machine
end

