-- ==== Sys2Proof/Laws/Exec.lean ====
section
/-! SUPPORT. The shape of a meaning, said once: what `perform` is in each stage, all it can have done when it answers a next state,
and the gate and the forwarding as equations. -/

namespace Sys2Proof.Machine

section
variable {s t : State} {d e1 e2 m1 m2 w : State → Result} {c : Bool}

/-! ### `perform` in each stage -/

theorem perform_fetch (h : s.stage = .fetch) : perform s d e1 e2 m1 m2 w c = .next (handToDecode s) := by
  unfold perform; rw [h]

theorem perform_decode (h : s.stage = .decode) :
    perform s d e1 e2 m1 m2 w c = thenRun (d s) fun s => .next (issue s) := by
  unfold perform; rw [h]

theorem perform_execute1 (h : s.stage = .execute1) :
    perform s d e1 e2 m1 m2 w c = thenRun (e1 s) fun s => .next (forward s) := by
  unfold perform; rw [h]

theorem perform_execute2 (h : s.stage = .execute2) :
    perform s d e1 e2 m1 m2 w c = thenRun (e2 s) fun s => .next (forward s) := by
  unfold perform; rw [h]

theorem perform_memory1 (h : s.stage = .memory1) :
    perform s d e1 e2 m1 m2 w c = thenRun (m1 s) fun s => .next (forward s) := by
  unfold perform; rw [h]

theorem perform_memory2 (h : s.stage = .memory2) :
    perform s d e1 e2 m1 m2 w c = thenRun (m2 s) fun s => .next (forward s) := by
  unfold perform; rw [h]

theorem perform_writeback (h : s.stage = .writeback) :
    perform s d e1 e2 m1 m2 w c = thenRun (w s) fun s => .next (countRetirement c s) := by
  unfold perform; rw [h]

/-- The state after a stage's generic end, when the action answered `u`: the end is taken unless a fault stopped the run. -/
def endedWith (f : State → State) (u : State) : State :=
  if u.status = .running then f u else u

theorem thenRun_next_end {r : Result} {f : State → State} (h : thenRun r (fun s => .next (f s)) = .next t) :
    ∃ u, r = .next u ∧ t = endedWith f u := by
  obtain ⟨u, hu, ⟨hr, hf⟩ | ⟨hr, rfl⟩⟩ := thenRun_next h
  · exact ⟨u, hu, by cases hf; simp [endedWith, hr]⟩
  · exact ⟨u, hu, by simp [endedWith, hr]⟩

/-- All a meaning that answers a next state can have done: the action of its stage, then the stage's generic end. -/
theorem perform_next (h : perform s d e1 e2 m1 m2 w c = .next t) :
    match s.stage with
    | .fetch => t = handToDecode s
    | .decode => ∃ u, d s = .next u ∧ t = endedWith issue u
    | .execute1 => ∃ u, e1 s = .next u ∧ t = endedWith forward u
    | .execute2 => ∃ u, e2 s = .next u ∧ t = endedWith forward u
    | .memory1 => ∃ u, m1 s = .next u ∧ t = endedWith forward u
    | .memory2 => ∃ u, m2 s = .next u ∧ t = endedWith forward u
    | .writeback => ∃ u, w s = .next u ∧ t = endedWith (countRetirement c) u := by
  unfold perform at h
  generalize s.stage = S at h ⊢
  cases S with
  | fetch => cases h; rfl
  | _ => exact thenRun_next_end h

end

/-! ### The gate and the generic ends, as equations -/

/-- A reserved source: nothing is read and the instruction is held (R108). -/
theorem gateAndRead_of_reserved {srcs : List (ValueSlot × Nat)} {s : State}
    (h : ∃ p ∈ srcs, s.isValid p.2 = false) :
    gateAndRead srcs s = s.setLatch .decode { s.latch .decode with stalled := true } := by
  obtain ⟨p, hp, hv⟩ := h
  have : (srcs.all fun p => s.isValid p.2) = false := by
    rw [List.all_eq_false]
    exact ⟨p, hp, by simp [hv]⟩
  simp only [gateAndRead, this, if_neg Bool.false_ne_true]

/-- Every source valid: all are read (R108). -/
theorem gateAndRead_of_valid {srcs : List (ValueSlot × Nat)} {s : State}
    (h : ∀ p ∈ srcs, s.isValid p.2 = true) :
    gateAndRead srcs s = s.setLatch .decode { readSources s (s.latch .decode) srcs with stalled := false } := by
  have : (srcs.all fun p => s.isValid p.2) = true := List.all_eq_true.mpr h
  simp only [gateAndRead, this, if_true]

/-- Reading sources changes the value fields only. -/
theorem readSources_keeps (s : State) (srcs : List (ValueSlot × Nat)) (l : Latch) :
    (readSources s l srcs).opcode = l.opcode ∧ (readSources s l srcs).pc = l.pc ∧ (readSources s l srcs).rd = l.rd ∧
    (readSources s l srcs).rs1 = l.rs1 ∧ (readSources s l srcs).rs2 = l.rs2 ∧ (readSources s l srcs).rs3 = l.rs3 ∧
    (readSources s l srcs).imm = l.imm ∧ (readSources s l srcs).busy = l.busy := by
  induction srcs generalizing l with
  | nil => exact ⟨rfl, rfl, rfl, rfl, rfl, rfl, rfl, rfl⟩
  | cons p rest ih =>
    have h := ih (l.setValue p.1 (s.readReg p.2))
    cases hp : p.1 <;> simpa only [readSources, Latch.setValue, hp] using h

/-- The gate changes only the value fields and the stall mark of `L[DRF]`. -/
theorem gateAndRead_latch (srcs : List (ValueSlot × Nat)) (s : State) :
    ∃ l : Latch, gateAndRead srcs s = s.setLatch .decode l ∧ l.opcode = (s.latch .decode).opcode ∧
      l.pc = (s.latch .decode).pc ∧ l.rd = (s.latch .decode).rd ∧ l.rs1 = (s.latch .decode).rs1 ∧
      l.rs2 = (s.latch .decode).rs2 ∧ l.rs3 = (s.latch .decode).rs3 ∧ l.imm = (s.latch .decode).imm ∧
      l.busy = (s.latch .decode).busy := by
  obtain ⟨h1, h2, h3, h4, h5, h6, h7, h8⟩ := readSources_keeps s srcs (s.latch .decode)
  by_cases h : (srcs.all fun p => s.isValid p.2) = true
  · exact ⟨{ readSources s (s.latch .decode) srcs with stalled := false },
      by simp only [gateAndRead, h, if_true], h1, h2, h3, h4, h5, h6, h7, h8⟩
  · exact ⟨{ s.latch .decode with stalled := true },
      by simp only [gateAndRead, if_neg h], rfl, rfl, rfl, rfl, rfl, rfl, rfl, rfl⟩

end Sys2Proof.Machine
end

