-- ==== Sys2Proof/Laws/Memory.lean ====
section
/-! SUPPORT. Data memory: reading after writing, and the canonical form, which every memory operation keeps. -/

namespace Sys2Proof.Machine

theorem Memory.read_nil (a : Nat) : Memory.read [] a = 0 := rfl

/-- The head of a canonical memory is no 0, and the rest is canonical. -/
theorem Memory.wf_cons {k : Nat} {v : Int} {m : Memory} (h : Memory.wf ((k, v) :: m) = true) :
    v ≠ 0 ∧ Memory.wf m = true := by
  cases m with
  | nil => exact ⟨by simpa [Memory.wf] using h, rfl⟩
  | cons p rest =>
    obtain ⟨k', v'⟩ := p
    simp only [Memory.wf, Bool.and_eq_true, bne_iff_ne, ne_eq, decide_eq_true_eq] at h
    exact ⟨h.1.1, h.2⟩

/-- Every index after the head of a canonical memory is larger. -/
theorem Memory.wf_head_lt {k : Nat} {v : Int} {m : Memory} (h : Memory.wf ((k, v) :: m) = true) :
    ∀ p ∈ m, k < p.1 := by
  induction m generalizing k v with
  | nil => simp
  | cons q rest ih =>
    obtain ⟨k', v'⟩ := q
    simp only [Memory.wf, Bool.and_eq_true, bne_iff_ne, ne_eq, decide_eq_true_eq] at h
    intro p hp
    rcases List.mem_cons.mp hp with rfl | hp
    · exact h.1.2
    · exact Nat.lt_trans h.1.2 (ih h.2 p hp)

/-- A memory is canonical when its head is no 0 and below the rest, and the rest is canonical. -/
theorem Memory.wf_of_cons {k : Nat} {v : Int} {m : Memory} (hv : v ≠ 0) (hlt : ∀ p ∈ m, k < p.1)
    (hm : Memory.wf m = true) : Memory.wf ((k, v) :: m) = true := by
  cases m with
  | nil => simpa [Memory.wf] using hv
  | cons p rest =>
    obtain ⟨k', v'⟩ := p
    have : k < k' := hlt (k', v') (by simp)
    simp only [Memory.wf, Bool.and_eq_true, bne_iff_ne, ne_eq, decide_eq_true_eq]
    exact ⟨⟨hv, this⟩, hm⟩

/-- A write lists no index but the old ones and the one written. -/
theorem Memory.mem_write {m : Memory} {a : Nat} {v : Int} {p : Nat × Int} (h : p ∈ Memory.write m a v) :
    p ∈ m ∨ p = (a, v) := by
  induction m with
  | nil =>
    simp only [Memory.write] at h
    split at h <;> simp_all
  | cons q rest ih =>
    obtain ⟨k, u⟩ := q
    simp only [Memory.write] at h
    split at h
    · split at h <;> simp only [List.mem_cons] at h ⊢ <;> tauto
    · split at h
      · split at h <;> simp only [List.mem_cons] at h ⊢ <;> tauto
      · rcases List.mem_cons.mp h with h | h
        · exact .inl (by simp [h])
        · exact (ih h).imp (List.mem_cons_of_mem _) id

/-- Every write keeps the canonical form. -/
theorem Memory.wf_write {m : Memory} (a : Nat) (v : Int) (h : Memory.wf m = true) :
    Memory.wf (Memory.write m a v) = true := by
  induction m with
  | nil =>
    simp only [Memory.write]
    split
    · rfl
    · simpa [Memory.wf] using ‹¬_›
  | cons q rest ih =>
    obtain ⟨k, u⟩ := q
    have hc := Memory.wf_cons h
    have hlt := Memory.wf_head_lt h
    simp only [Memory.write]
    split
    · rename_i hak
      split
      · exact h
      · refine Memory.wf_of_cons ‹_› (fun p hp => ?_) h
        rcases List.mem_cons.mp hp with rfl | hp
        · exact hak
        · exact Nat.lt_trans hak (hlt p hp)
    · split
      · rename_i hak
        split
        · exact hc.2
        · exact Memory.wf_of_cons ‹_› (hak ▸ hlt) hc.2
      · refine Memory.wf_of_cons hc.1 (fun p hp => ?_) (ih hc.2)
        rcases Memory.mem_write hp with hp | rfl
        · exact hlt p hp
        · simp only; omega

/-- In a canonical memory an index below every listed one reads 0. -/
theorem Memory.read_of_lt {m : Memory} {a : Nat} (h : ∀ p ∈ m, a < p.1) : Memory.read m a = 0 := by
  induction m with
  | nil => rfl
  | cons q rest ih =>
    obtain ⟨k, u⟩ := q
    have hk : a < k := h (k, u) (by simp)
    simp only [Memory.read, if_neg (Nat.ne_of_lt hk)]
    exact ih fun p hp => h p (List.mem_cons_of_mem _ hp)

/-- Reading the written cell gives the value written. -/
theorem Memory.read_write_same {m : Memory} (a : Nat) (v : Int) (h : Memory.wf m = true) :
    Memory.read (Memory.write m a v) a = v := by
  induction m with
  | nil =>
    simp only [Memory.write]
    split <;> simp_all [Memory.read]
  | cons q rest ih =>
    obtain ⟨k, u⟩ := q
    have hlt := Memory.wf_head_lt h
    simp only [Memory.write]
    split
    · rename_i hak
      split
      · subst v
        refine Memory.read_of_lt fun p hp => ?_
        rcases List.mem_cons.mp hp with rfl | hp
        · exact hak
        · exact Nat.lt_trans hak (hlt p hp)
      · simp [Memory.read]
    · split
      · rename_i hak
        split
        · subst v
          exact Memory.read_of_lt (hak ▸ hlt)
        · simp [Memory.read]
      · rename_i h2
        simp only [Memory.read, if_neg h2]
        exact ih (Memory.wf_cons h).2

/-- Reading another cell gives what it held; no canonical form is needed. -/
theorem Memory.read_write_ne (m : Memory) {a b : Nat} (v : Int) (h : b ≠ a) :
    Memory.read (Memory.write m a v) b = Memory.read m b := by
  induction m with
  | nil =>
    simp only [Memory.write]
    split <;> simp [Memory.read, h]
  | cons q rest ih =>
    obtain ⟨k, u⟩ := q
    simp only [Memory.write]
    split
    · split <;> simp [Memory.read, h]
    · split
      · rename_i hak
        subst hak
        split <;> simp [Memory.read, h]
      · simp only [Memory.read]
        split
        · rfl
        · exact ih

end Sys2Proof.Machine
end

