-- ==== Sys2Proof/Laws/PerInstr.lean ====
section
/-! SUPPORT. Facts per instruction: the opcode and the tag of the record the encoder writes (R83, R85). -/

namespace Sys2Proof.Laws

/-- The record the encoder writes for `i` carries `i`'s opcode, and `i`'s tag selects that opcode (R85). -/
def OpcodeOfEncoding.Statement (i : Instr) : Prop :=
  (∀ ji, (encode ji i).opcode = .known i.opcode) ∧ opcodeOfTag (tagOf i.opcode) = some i.opcode

theorem OpcodeOfEncoding.movc (rd : Int) (imm : Int) :
    OpcodeOfEncoding.Statement (.movc rd imm) := ⟨fun _ => rfl, rfl⟩
theorem OpcodeOfEncoding.add (rd : Int) (rs1 : Int) (rs2 : Int) :
    OpcodeOfEncoding.Statement (.add rd rs1 rs2) := ⟨fun _ => rfl, rfl⟩
theorem OpcodeOfEncoding.addl (rd : Int) (rs1 : Int) (imm : Int) :
    OpcodeOfEncoding.Statement (.addl rd rs1 imm) := ⟨fun _ => rfl, rfl⟩
theorem OpcodeOfEncoding.sub (rd : Int) (rs1 : Int) (rs2 : Int) :
    OpcodeOfEncoding.Statement (.sub rd rs1 rs2) := ⟨fun _ => rfl, rfl⟩
theorem OpcodeOfEncoding.subl (rd : Int) (rs1 : Int) (imm : Int) :
    OpcodeOfEncoding.Statement (.subl rd rs1 imm) := ⟨fun _ => rfl, rfl⟩
theorem OpcodeOfEncoding.mul (rd : Int) (rs1 : Int) (rs2 : Int) :
    OpcodeOfEncoding.Statement (.mul rd rs1 rs2) := ⟨fun _ => rfl, rfl⟩
theorem OpcodeOfEncoding.and (rd : Int) (rs1 : Int) (rs2 : Int) :
    OpcodeOfEncoding.Statement (.and rd rs1 rs2) := ⟨fun _ => rfl, rfl⟩
theorem OpcodeOfEncoding.or (rd : Int) (rs1 : Int) (rs2 : Int) :
    OpcodeOfEncoding.Statement (.or rd rs1 rs2) := ⟨fun _ => rfl, rfl⟩
theorem OpcodeOfEncoding.xor (rd : Int) (rs1 : Int) (rs2 : Int) :
    OpcodeOfEncoding.Statement (.xor rd rs1 rs2) := ⟨fun _ => rfl, rfl⟩
theorem OpcodeOfEncoding.load (rd : Int) (rs1 : Int) (imm : Int) :
    OpcodeOfEncoding.Statement (.load rd rs1 imm) := ⟨fun _ => rfl, rfl⟩
theorem OpcodeOfEncoding.ldr (rd : Int) (rs1 : Int) (rs2 : Int) :
    OpcodeOfEncoding.Statement (.ldr rd rs1 rs2) := ⟨fun _ => rfl, rfl⟩
theorem OpcodeOfEncoding.store (rs1 : Int) (rs2 : Int) (imm : Int) :
    OpcodeOfEncoding.Statement (.store rs1 rs2 imm) := ⟨fun _ => rfl, rfl⟩
theorem OpcodeOfEncoding.str (rs1 : Int) (rs2 : Int) (rs3 : Int) :
    OpcodeOfEncoding.Statement (.str rs1 rs2 rs3) := ⟨fun _ => rfl, rfl⟩
theorem OpcodeOfEncoding.bz (imm : Int) :
    OpcodeOfEncoding.Statement (.bz imm) := ⟨fun _ => rfl, rfl⟩
theorem OpcodeOfEncoding.bnz (imm : Int) :
    OpcodeOfEncoding.Statement (.bnz imm) := ⟨fun _ => rfl, rfl⟩
theorem OpcodeOfEncoding.jump (base : Int) (imm : Int) :
    OpcodeOfEncoding.Statement (.jump base imm) := ⟨fun ji => by cases ji <;> rfl, rfl⟩
theorem OpcodeOfEncoding.halt :
    OpcodeOfEncoding.Statement (.halt) := ⟨fun _ => rfl, rfl⟩
theorem OpcodeOfEncoding.nop :
    OpcodeOfEncoding.Statement (.nop) := ⟨fun _ => rfl, rfl⟩

end Sys2Proof.Laws
end

