-- ==== Sys2Proof/Tests/Slice0.lean ====
section
/-! SUPPORT. The model's own tests: the checks of well-formedness refuse, the decoder reads records written from the tables,
one or two steps per instruction with the values `95_test_vectors.md` gives, and a witness for the hypotheses of every
statement. -/

namespace Sys2Proof.Tests

open Sys2Proof Sys2Proof.Machine

/-! ### Small states -/

/-- The next state of an answer. -/
def next? : Result → Option State
  | .next s => some s
  | .fault _ => none
  | .refused _ => none

/-- The eighteen opcodes. -/
def opcodes : List Opcode :=
  [.movc, .add, .addl, .sub, .subl, .mul, .and, .or, .xor, .load, .ldr, .store, .str, .bz, .bnz, .jump, .halt, .nop]

/-- A latch with an instruction fetched at 4000: fields 1, 2, 3, 4, literal and source values as given. -/
def holding (o : Opcode) (imm a b c : Int) : Latch :=
  { bubble false with
    pc := 4000, opcode := .op o, rd := 1, rs1 := 2, rs2 := 3, rs3 := 4, imm := imm, rs1Value := a, rs2Value := b, rs3Value := c }

/-- The reset state with stage `S` running and `l` in its latch. -/
def inStage (S : Stage) (l : Latch) : State :=
  { State.reset.setLatch S l with stage := S }

/-- The reset state with a one-record program, in which the driver runs a tick. -/
def loaded (r : Record) : State :=
  State.construct { Config.default with code := [r] }

/-- A field of the state after `exec` of the instruction in stage `S`. -/
def after (S : Stage) (l : Latch) (i : Instr) {α : Type} (f : State → α) : Option α :=
  (next? (exec i (inStage S l))).map f

/-! ### Well-formedness refuses (R84, R6) -/

theorem test_wf_rd_32 : (Instr.movc 32 1).wellFormed Config.default = false := by decide
theorem test_wf_rs1_negative : (Instr.add 1 (-1) 0).wellFormed Config.default = false := by decide
theorem test_wf_rs2_32 : (Instr.sub 1 2 32).wellFormed Config.default = false := by decide
theorem test_wf_rs3_32 : (Instr.str 1 2 32).wellFormed Config.default = false := by decide
theorem test_wf_last_register : (Instr.str 31 0 31).wellFormed Config.default = true := by decide
theorem test_wf_literal : (Instr.movc 1 2147483648).wellFormed Config.default = false := by decide
theorem test_wf_fewer_registers : (Instr.movc 16 1).wellFormed { Config.default with nreg := 16 } = false := by decide
theorem test_wf_words :
    ({ Config.default with code := [recordOfTag 0x01 1 0 0 0 (-2147483649)] } : Config).wellFormed = false := by decide
theorem test_wf_width_three : ({ Config.default with width := 3 } : Config).wellFormed = false := by decide
theorem test_wf_code_base : ({ Config.default with codeBase := 4002 } : Config).wellFormed = false := by decide
theorem test_wf_memory_zero_cell : ({ Config.default with dmemInit := [(5, 0)] } : Config).wellFormed = false := by decide
theorem test_wf_memory_order : ({ Config.default with dmemInit := [(5, 1), (5, 2)] } : Config).wellFormed = false := by decide
theorem test_wf_memory_cell : ({ Config.default with dmemInit := [(4096, 1)] } : Config).wellFormed = false := by decide
theorem test_wf_default : Config.default.wellFormed = true := by decide

/-! ### Decoding: records written out from R83 and R85 -/

theorem test_decode_movc : decode .rd (recordOfTag 0x01 1 0 0 0 4000) = .instr (.movc 1 4000) := by decide
theorem test_decode_add : decode .rd (recordOfTag 0x02 1 2 3 0 0) = .instr (.add 1 2 3) := by decide
theorem test_decode_addl : decode .rd (recordOfTag 0x03 5 4 0 0 (-10)) = .instr (.addl 5 4 (-10)) := by decide
theorem test_decode_sub : decode .rd (recordOfTag 0x04 4 1 5 0 0) = .instr (.sub 4 1 5) := by decide
theorem test_decode_subl : decode .rd (recordOfTag 0x05 1 0 0 0 1) = .instr (.subl 1 0 1) := by decide
theorem test_decode_mul : decode .rd (recordOfTag 0x06 1 2 3 0 0) = .instr (.mul 1 2 3) := by decide
theorem test_decode_and : decode .rd (recordOfTag 0x07 1 2 3 0 0) = .instr (.and 1 2 3) := by decide
theorem test_decode_or : decode .rd (recordOfTag 0x08 1 2 0 0 0) = .instr (.or 1 2 0) := by decide
theorem test_decode_xor : decode .rd (recordOfTag 0x09 1 2 3 0 0) = .instr (.xor 1 2 3) := by decide
theorem test_decode_load : decode .rd (recordOfTag 0x0A 1 2 0 0 4) = .instr (.load 1 2 4) := by decide
theorem test_decode_ldr : decode .rd (recordOfTag 0x0B 1 2 3 0 0) = .instr (.ldr 1 2 3) := by decide
theorem test_decode_store : decode .rd (recordOfTag 0x0C 0 1 2 0 8) = .instr (.store 1 2 8) := by decide
theorem test_decode_str : decode .rd (recordOfTag 0x0D 0 1 2 3 0) = .instr (.str 1 2 3) := by decide
theorem test_decode_bz : decode .rd (recordOfTag 0x0E 0 0 0 0 8) = .instr (.bz 8) := by decide
theorem test_decode_bnz : decode .rd (recordOfTag 0x0F 0 0 0 0 (-4)) = .instr (.bnz (-4)) := by decide
theorem test_decode_jump : decode .rd (recordOfTag 0x10 1 0 0 0 8) = .instr (.jump 1 8) := by decide
theorem test_decode_jump_from_rs1 : decode .rs1 (recordOfTag 0x10 1 7 0 0 8) = .instr (.jump 7 8) := by decide
theorem test_decode_halt : decode .rd (recordOfTag 0x11 0 77 0 0 0) = .instr .halt := by decide
theorem test_decode_nop : decode .rd (recordOfTag 0x12 99 (-5) 0 0 0) = .instr .nop := by decide
theorem test_decode_table_word : decodeTableWord 8 0x02 = some (.add 0 0 0) := by decide
theorem test_decode_bubble_tag : decodeTableWord 8 0x00 = none := by decide
theorem test_decode_last_tag : decodeTableWord 8 0xFF = none := by decide
theorem test_decode_names_the_tag : decode .rd (recordOfTag 0x13 0 0 0 0 0) = .unrecognizedOpcode "0x13" := by decide

/-! ### One or two steps per instruction -/

/-- V-A3. -/
theorem test_movc_result :
    after .execute1 (holding .movc (-2147483648) 0 0 0) (.movc 1 (-2147483648)) (·.latches.ex2.buffer) =
      some (-2147483648) := by decide
/-- R113: the destination is reserved. -/
theorem test_movc_reserves :
    after .execute1 (holding .movc 5 0 0 0) (.movc 1 5) (fun s => s.valid[1]?) = some false := by decide
/-- V-A5: 0x7FFFFFFF + 1 wraps. -/
theorem test_add_wraps :
    after .execute1 (holding .add 0 2147483647 1 0) (.add 1 2 3) (·.latches.ex2.buffer) = some (-2147483648) := by decide
/-- R132: a zero result sets Z in Writeback. -/
theorem test_add_sets_z :
    after .writeback (holding .add 0 (-1) 1 0) (.add 1 2 3) (·.z) = some true := by decide
/-- V-A9. -/
theorem test_addl_wraps :
    after .execute1 (holding .addl 2 2147483647 0 0) (.addl 1 2 2) (·.latches.ex2.buffer) = some (-2147483647) := by decide
/-- V-A13: rs1 is the minuend. -/
theorem test_sub_order :
    after .execute1 (holding .sub 0 3 5 0) (.sub 1 2 3) (·.latches.ex2.buffer) = some (-2) := by decide
/-- V-A12. -/
theorem test_sub_wraps :
    after .execute1 (holding .sub 0 (-2147483648) 1 0) (.sub 1 2 3) (·.latches.ex2.buffer) = some 2147483647 := by decide
/-- V-A16. -/
theorem test_subl_wraps :
    after .execute1 (holding .subl (-2147483648) 0 0 0) (.subl 1 2 (-2147483648)) (·.latches.ex2.buffer) =
      some (-2147483648) := by decide
/-- V-A17. -/
theorem test_mul_signs :
    after .execute1 (holding .mul 0 (-3) 7 0) (.mul 1 2 3) (·.latches.ex2.buffer) = some (-21) := by decide
/-- V-A20. -/
theorem test_mul_wraps :
    after .execute1 (holding .mul 0 46341 46341 0) (.mul 1 2 3) (·.latches.ex2.buffer) = some (-2147479015) := by decide
/-- V-L1, in Execute2 (R180). -/
theorem test_and_result :
    after .execute2 (holding .and 0 3855 255 0) (.and 1 2 3) (·.latches.mem1.buffer) = some 15 := by decide
/-- V-L2. -/
theorem test_or_result :
    after .execute2 (holding .or 0 61440 15 0) (.or 1 2 3) (·.latches.mem1.buffer) = some 61455 := by decide
/-- R25, R131: with the same destination in Memory2 the release does not write the bit, 1 or 0 (log entry 12). -/
theorem test_or_release_leaves_the_bit :
    ∀ b ∈ [true, false], (next? (exec (.or 1 2 3)
      (((inStage .writeback (holding .or 0 0 0 0)).setLatch .memory2 (holding .movc 0 0 0 0)).setValid 1 b))).map
        (·.isValid 1) = some b := by decide
/-- V-L3. -/
theorem test_xor_result :
    after .execute2 (holding .xor 0 (-1) 65535 0) (.xor 1 2 3) (·.latches.mem1.buffer) = some (-65536) := by decide
/-- V-L4: a zero result of a logical operation does not set Z. -/
theorem test_xor_leaves_z :
    after .writeback (holding .xor 0 5 5 0) (.xor 1 2 3) (·.z) = some false := by decide
/-- V-M2: base 100 plus 4. -/
theorem test_load_address :
    after .execute1 (holding .load 4 100 0 0) (.load 1 2 4) (·.latches.ex2.memAddress) = some 104 := by decide
/-- R61, R233: the first address past the last cell faults in Memory2. -/
theorem test_load_faults :
    after .memory2 { holding .load 0 0 0 0 with memAddress := 4096 } (.load 1 2 4) (·.status) =
      some (.faulted .addressOutOfRange .memory2 4000 (.data 4096)) := by decide
/-- V-M8: 4100 + (-5). -/
theorem test_ldr_address :
    after .execute1 (holding .ldr 0 4100 (-5) 0) (.ldr 1 2 3) (·.latches.ex2.memAddress) = some 4095 := by decide
/-- R6, R159 with XLEN = 16: 32767 + 1 wraps at 2^15. -/
theorem test_ldr_address_of_16_bits :
    (next? (exec (.ldr 1 2 3) { inStage .execute1 (holding .ldr 0 32767 1 0) with cfg := { Config.default with xlen := 16 } })).map
      (·.latches.ex2.memAddress) = some (-32768) := by decide
/-- V-M1: the base is rs2. -/
theorem test_store_address :
    after .execute1 (holding .store 8 9 200 0) (.store 2 3 8) (·.latches.ex2.memAddress) = some 208 := by decide
/-- V-M1: DMem[208] = 9. -/
theorem test_store_writes :
    after .memory1 { holding .store 8 9 200 0 with memAddress := 208 } (.store 2 3 8) (·.dmem) = some [(208, 9)] := by decide
/-- V-M4: base 300 plus index 5. -/
theorem test_str_address :
    after .execute1 (holding .str 0 (-7) 300 5) (.str 2 3 4) (·.latches.ex2.memAddress) = some 305 := by decide
/-- R211 (as V-C7): the target is the branch's own pc 4000 plus 10, aligned down. -/
theorem test_bnz_target :
    after .execute2 (holding .bnz 10 0 0 0) (.bnz 10) (fun s => (s.brPending, s.brTarget)) = some (true, 4008) := by decide
/-- V-C6: BZ with Z 0 stages nothing. -/
theorem test_bz_not_taken :
    after .execute2 (holding .bz 8 0 0 0) (.bz 8) (·.brPending) = some false := by decide
/-- R209: with a bubble in Execute1 the branch spends budget. -/
theorem test_bz_stalls :
    after .decode (holding .bz 8 0 0 0) (.bz 8) (fun s => (s.bstall, s.latches.drf.stalled)) = some (1, true) := by decide
/-- V-C10: 4014 + 4 aligns down to 4016. -/
theorem test_jump_redirects :
    after .execute1 (holding .jump 4 4014 0 0) (.jump 1 4) (fun s => (s.pc, s.jmpAddr, s.latches.drf.busy)) =
      some (4016, 4020, true) := by decide
/-- R212: a JUMP leaves Execute2 as a stall bubble. -/
theorem test_jump_vanishes :
    after .execute2 (holding .jump 0 4016 0 0) (.jump 1 0) (·.latches.mem1) = some (bubble true) := by decide
/-- V-C14: HALT at index 0 makes the program one instruction long. -/
theorem test_halt_truncates :
    after .writeback (holding .halt 0 0 0 0) .halt (fun s => (s.programSize, s.completed)) = some (1, 1) := by decide
/-- R214: HALT freezes Fetch in Decode. -/
theorem test_halt_freezes :
    after .decode (holding .halt 0 0 0 0) .halt (fun s => (s.latches.f.busy, s.haltFlag)) = some (true, true) := by decide
/-- R134: a NOP counts. -/
theorem test_nop_counts :
    after .writeback (holding .nop 0 0 0 0) .nop (·.completed) = some 1 := by decide
/-- R233 (as V-F3): a base register field of -1. -/
theorem test_field_check :
    after .decode { holding .ldr 0 0 0 0 with rs1 := -1 } (.ldr 1 (-1) 0) (·.status) =
      some (.faulted .addressOutOfRange .decode 4000 (.register .rs1 (-1))) := by decide

/-! ### Witnesses: the hypotheses of every statement can be met, clause by clause -/

/-- An answer with a property is a next state with it. -/
theorem answers {r : Result} {p : State → Bool} (h : (next? r).any p = true) : ∃ t, r = .next t ∧ p t = true := by
  cases r with
  | next t => exact ⟨t, rfl, h⟩
  | fault e => cases h
  | refused e => cases h

/-- `s` with register 2 reserved. -/
def reserved (s : State) : State := s.setValid 2 false

/-- The state before a step in which the driver runs a tick. -/
def ready (s : State) : State := { s with programSize := 9 }

/-- Reset: the default parameters list no data cell, and six stages are not Fetch. -/
theorem test_witness_reset : Config.default.dmemInit = [] ∧ ∀ S ∈ [Stage.decode, .execute1, .writeback], S ≠ .fetch := by
  decide

/-- Each instruction's rule, in the stages where the latch is active. -/
theorem test_witness_active_latches :
    ∀ S ∈ [Stage.decode, .execute1, .execute2, .memory1, .memory2, .writeback], ∀ o ∈ opcodes,
      (inStage S (holding o 0 0 0 0)).runs S ∧ ((inStage S (holding o 0 0 0 0)).latch S).active = true := by
  decide
/-- The gate: a reserved source, and none. -/
theorem test_witness_gate :
    ((reserved (inStage .decode (holding .add 0 0 0 0))).runs .decode ∧
      ∃ r ∈ [2, 3], (reserved (inStage .decode (holding .add 0 0 0 0))).isValid r = false) ∧
    ((inStage .decode (holding .str 0 0 0 0)).runs .decode ∧
      ∀ r ∈ [2, 3, 4], (inStage .decode (holding .str 0 0 0 0)).isValid r = true) ∧
    (Instr.add 1 2 3).fieldsInRange Config.default = true ∧ (Instr.str 2 3 4).fieldsInRange Config.default = true := by
  decide
/-- Loads and stores: the first and the last cell are in range, the addresses before and after them are not. -/
theorem test_witness_addresses :
    dataIndex? State.reset.cfg 0 = some 0 ∧ dataIndex? State.reset.cfg 4095 = some 4095 ∧
    dataIndex? State.reset.cfg (-1) = none ∧ dataIndex? State.reset.cfg 4096 = none ∧
    Memory.wf State.reset.dmem = true := by
  decide
/-- Load and store addresses as the statements' hypotheses put them: the last cell, and the addresses outside. -/
theorem test_witness_address_ranges :
    let at_ (a : Int) := inStage .memory2 { holding .load 0 0 0 0 with memAddress := a }
    ((at_ 4095).latches.mem2.memAddress = (4095 : Nat) ∧ 4095 < (at_ 4095).cfg.dmemSize) ∧
    ∀ a ∈ [(-1 : Int), 4096], ¬ (0 ≤ (at_ a).latches.mem2.memAddress ∧
      (at_ a).latches.mem2.memAddress < ((at_ a).cfg.dmemSize : Int)) := by
  decide
/-- Writeback's release: a producer of the same register behind with the bit 0, and none behind. -/
theorem test_witness_release :
    (let s := ((inStage .writeback (holding .or 0 0 0 0)).setLatch .memory2 (holding .movc 0 0 0 0)).setValid 1 false
     s.runs .writeback ∧ (Instr.or 1 2 3).destField? = some ((1 : Nat) : Int) ∧ 1 < s.cfg.nreg ∧ s.sameWriterBehind 1 = true ∧
       s.isValid 1 = false) ∧
    (let s := inStage .writeback (holding .or 0 0 0 0)
     s.runs .writeback ∧ 1 < s.cfg.nreg ∧ s.sameWriterBehind 1 = false ∧ 1 < s.valid.length) := by
  decide
/-- The branches: both values of Z, a staged target and none. -/
theorem test_witness_branches :
    (inStage .execute2 (holding .bnz 0 0 0 0)).z = false ∧
    ({ inStage .execute2 (holding .bz 0 0 0 0) with z := true }).z = true ∧
    ({ inStage .memory1 (holding .bz 0 0 0 0) with brPending := true }).brPending = true ∧
    (inStage .memory1 (holding .bz 0 0 0 0)).brPending = false := by
  decide
/-- The branch-stall budget: the last stall, the budget spent, an opcode outside the set. -/
theorem test_witness_budget :
    (let s := { inStage .decode (holding .bz 0 0 0 0) with bstall := 3 }
     s.runs .decode ∧ s.latches.ex1.opcode ∈ s.cfg.brStallSet ∧ s.bstall < s.cfg.bstallMax) ∧
    (let s := { inStage .decode (holding .bz 0 0 0 0) with bstall := 4 }
     s.runs .decode ∧ ¬ (s.latches.ex1.opcode ∈ s.cfg.brStallSet ∧ s.bstall < s.cfg.bstallMax)) ∧
    (let s := (inStage .decode (holding .bz 0 0 0 0)).setLatch .execute1 (holding .or 0 0 0 0)
     s.runs .decode ∧ ¬ (s.latches.ex1.opcode ∈ s.cfg.brStallSet ∧ s.bstall < s.cfg.bstallMax)) := by
  decide
/-- The field check: a first field out of range, below and above. -/
theorem test_witness_field_check :
    (inStage .decode (holding .add 0 0 0 0)).runs .decode ∧
    ((Instr.add 1 (-1) 32).registerFields .rd).find? (fun p => !inRange 32 p.2) = some (.rs1, -1) ∧
    ((Instr.str 0 31 32).registerFields .rd).find? (fun p => !inRange 32 p.2) = some (.rs3, 32) := by
  decide
/-- Decode of a well-formed instruction, held and not held. -/
theorem test_witness_well_formed :
    (Instr.add 1 2 31).fieldsInRange Config.default = true ∧ (Instr.add 1 2 31).isBranch = false ∧
    (reserved (inStage .decode (holding .add 0 0 0 0))).runs .decode ∧
    ((2 : Nat) : Int) ∈ (Instr.add 1 2 31).sourceFields ∧
    (reserved (inStage .decode (holding .add 0 0 0 0))).isValid 2 = false ∧
    (inStage .decode (holding .add 0 0 0 0)).runs .decode ∧
    ∀ a ∈ (Instr.add 1 2 31).sourceFields, (inStage .decode (holding .add 0 0 0 0)).isValid a.toNat = true := by
  decide
/-- The frames: every instruction answers a next state in every stage. -/
theorem test_witness_frames :
    ∀ S ∈ [Stage.fetch, .decode, .execute1, .execute2, .memory1, .memory2, .writeback], ∀ o ∈ opcodes,
      (next? (exec (decodeFields .rd o 1 2 3 4 0) (inStage S (holding o 0 0 0 0)))).isSome = true := by
  decide
/-- Registers and scoreboard: a producer in Writeback and in Execute1. -/
theorem test_witness_producer :
    ∃ t, exec (.add 1 2 3) (inStage .writeback (holding .add 0 0 0 0)) = .next t ∧
      ((Instr.add 1 2 3).destField? == some 1) = true :=
  answers (by decide)
/-- pc: Fetch with Decode not stalled, JUMP in Execute1, a staged branch in Memory1, and none of them. -/
theorem test_witness_pc :
    (inStage .fetch (holding .nop 0 0 0 0)).latches.drf.stalled = false ∧
    (∃ t, exec (.jump 1 0) (inStage .execute1 (holding .jump 0 0 0 0)) = .next t ∧ (t.stage == .execute1) = true) ∧
    (∃ t, exec (.bz 0) { inStage .memory1 (holding .bz 0 0 0 0) with brPending := true } = .next t ∧
      (t.stage == .memory1 && (Instr.bz 0).isBranch) = true) ∧
    ∃ t, exec (.bz 0) (inStage .memory1 (holding .bz 0 0 0 0)) = .next t ∧ (!t.brPending) = true :=
  ⟨by decide, answers (by decide), answers (by decide), answers (by decide)⟩
/-- Data memory: the addressed cell, and an address that names none. -/
theorem test_witness_data_memory :
    (∃ t, exec (.store 2 3 0) (inStage .memory1 { holding .store 0 9 0 0 with memAddress := 4095 }) = .next t ∧
      (dataIndex? t.cfg 4095 == some 4095) = true) ∧
    ∃ t, exec (.store 2 3 0) (inStage .memory1 { holding .store 0 9 0 0 with memAddress := 4096 }) = .next t ∧
      (dataIndex? t.cfg 4096 == none) = true :=
  ⟨answers (by decide), answers (by decide)⟩
/-- Latches: HALT in Decode; a branch in Memory1 without a staged target. -/
theorem test_witness_latches :
    (∃ t, exec .halt (inStage .decode (holding .halt 0 0 0 0)) = .next t ∧ (t.stage == .decode) = true) ∧
    ∃ t, exec (.bnz 0) (inStage .memory1 (holding .bnz 0 0 0 0)) = .next t ∧ (!t.brPending) = true :=
  ⟨answers (by decide), answers (by decide)⟩
/-- Retirements: a NOP that is not counted, and a counted instruction. -/
theorem test_witness_retirements :
    (inStage .writeback (holding .nop 0 0 0 0)).runs .writeback ∧
    ∃ t, exec .nop { inStage .writeback (holding .nop 0 0 0 0) with cfg := { Config.default with nopCounts := false } } =
      .next t ∧ (t.completed == 0) = true :=
  ⟨by decide, answers (by decide)⟩

/-- The driver: the count reached, the budget spent, a tick. -/
theorem test_witness_driver :
    (State.reset.status = .running ∧ State.reset.completed = State.reset.programSize) ∧
    (let s := { ready State.reset with clock := 50, cfg := { Config.default with cycleBudget := 50 } }
     s.status = .running ∧ s.completed ≠ s.programSize ∧ 0 < s.cfg.cycleBudget ∧ s.cfg.cycleBudget ≤ s.clock) ∧
    (ready State.reset).ticks := by
  decide
/-- A stage procedure on its own instruction. -/
theorem test_witness_stage_procedures :
    (let s := inStage .decode (holding .add 0 0 0 0); s.latches.drf.instr? .rd = some (.add 1 2 3) ∧ s.latches.drf.busy = false) ∧
    (∀ S ∈ [Stage.execute1, .memory1, .memory2, .writeback], let s := inStage S (holding .add 0 0 0 0)
      (s.latch S).instr? .rd = some (.add 1 2 3) ∧ (s.latch S).active = true) ∧
    (let s := inStage .execute2 (holding .add 0 0 0 0)
     s.latches.ex2.instr? .rd = some (.add 1 2 3) ∧ s.latches.ex2.active = true ∧ s.jmpPending = false ∧
       ({ s with jmpPending := true }).jmpPending = true) := by
  decide
/-- A step that fetches and runs a record: Decode free, and Decode stalled. -/
theorem test_witness_step_runs :
    ((loaded (encode .rd .halt)).ticks ∧ decode .rd (encode .rd .halt) = .instr .halt ∧
      ∃ u, beforeFetch { loaded (encode .rd .halt) with flushedNow := false } = .next u ∧
        (u.status == .running && !fetchHeld u && codeAt? u == some (encode .rd .halt) && !u.latches.drf.stalled) = true) ∧
    ∃ u, beforeFetch { reserved ((loaded (encode .rd .halt)).setLatch .decode (holding .add 0 0 0 0)) with
        flushedNow := false } = .next u ∧
      (u.status == .running && !fetchHeld u && codeAt? u == some (encode .rd .halt) && u.latches.drf.stalled) = true :=
  ⟨⟨by decide, by decide, answers (by decide)⟩, answers (by decide)⟩
/-- Latches that are not active: those of reset, with and without a pending redirect. -/
theorem test_witness_inactive :
    (∀ S ∈ [Stage.execute1, .execute2, .memory1, .memory2, .writeback], (State.reset.latch S).active = false) ∧
    State.reset.jmpPending = false ∧ ({ State.reset with jmpPending := true }).jmpPending = true := by
  decide
/-- A busy latch, and a bubble, in Decode. -/
theorem test_witness_decode_empty :
    State.reset.latches.drf.busy = true ∧ (inStage .decode (bubble false)).latches.drf.opcode = .bubble := by
  decide
/-- An unknown opcode in Decode, and the fault it raises. -/
theorem test_witness_unknown_opcode :
    let s := inStage .decode { bubble false with opcode := .unknown "FOO", pc := 4004 }
    (s.latches.drf.busy = false ∧ s.latches.drf.opcode = .unknown "FOO" ∧ s.status = .running) ∧
    ∃ t, runStage .decode s = .next t ∧
      (t.status == .faulted .unrecognizedOpcode .decode 4004 (.opcode "FOO")) = true :=
  ⟨by decide, answers (by decide)⟩
/-- Fetch: held with Decode stalled and not, inside the program, past its end, before its start. -/
theorem test_witness_fetch :
    ({ bubble false with busy := true }).busy = true ∧
    (inStage .decode { bubble false with stalled := true }).latches.drf.stalled = true ∧
    fetchHeld State.reset = false ∧ State.reset.latches.drf.stalled = false ∧
    (codeAt? (loaded (encode .rd .halt))).isSome = true ∧ codeAt? { loaded (encode .rd .halt) with pc := 4004 } = none ∧
    codeAt? { loaded (encode .rd .halt) with pc := 3996 } = none ∧ State.reset.cfg.fetchOob = .bubble ∧
    ({ Config.default with fetchOob := .fault }).fetchOob = .fault := by
  decide
/-- A run that has ended, and the two outcomes of a step for the clock. -/
theorem test_witness_ends :
    ({ State.reset with status := .completed }).status ≠ .running ∧
    (∃ t, step State.reset = .next t ∧ (t.status == .completed) = true) ∧
    ∃ t, step (ready State.reset) = .next t ∧ (t.status == .running) = true :=
  ⟨by decide, answers (by decide), answers (by decide)⟩
/-- Each kind of fault comes out of a step. -/
theorem test_witness_faults :
    (∃ t, step (ready (inStage .decode { holding .nop 0 0 0 0 with opcode := .unknown "FOO" })) = .next t ∧
      (t.status == .faulted .unrecognizedOpcode .decode 4000 (.opcode "FOO")) = true) ∧
    (∃ t, step (ready (inStage .decode { holding .add 0 0 0 0 with rd := 32 })) = .next t ∧
      (t.status == .faulted .addressOutOfRange .decode 4000 (.register .rd 32)) = true) ∧
    (∃ t, step (ready (inStage .memory1 { holding .store 0 9 0 0 with memAddress := -1 })) = .next t ∧
      (t.status == .faulted .addressOutOfRange .memory1 4000 (.data (-1))) = true) ∧
    (∃ t, step (ready (inStage .memory2 { holding .load 0 0 0 0 with memAddress := 5000 })) = .next t ∧
      (t.status == .faulted .addressOutOfRange .memory2 4000 (.data 5000)) = true) ∧
    ∃ t, step { ready State.reset with cfg := { Config.default with fetchOob := .fault } } = .next t ∧
      (t.status == .faulted .addressOutOfRange .fetch 4000 (.code 4000)) = true :=
  ⟨answers (by decide), answers (by decide), answers (by decide), answers (by decide), answers (by decide)⟩
/-- A tick in which a producer retires. -/
theorem test_witness_retirement_step :
    (ready (inStage .writeback { holding .add 0 0 0 0 with buffer := 12 })).ticks ∧
    ∃ t, step (ready (inStage .writeback { holding .add 0 0 0 0 with buffer := 12 })) = .next t ∧
      (t.readReg 1 == 12 && t.completed == 1) = true :=
  ⟨by decide, answers (by decide)⟩
/-- A tick in which a store changes a cell. -/
theorem test_witness_store_step :
    ∃ t, step (ready (inStage .memory1 { holding .store 0 9 0 0 with memAddress := 4095 })) = .next t ∧
      (Memory.read t.dmem 4095 == 9) = true :=
  answers (by decide)
/-- V-M5: the load in Memory2 reads the cell before the younger store in Memory1 writes it. -/
theorem test_witness_load_before_store :
    let s := ready ((inStage .memory1 { holding .store 0 7 0 0 with memAddress := 10 }).setLatch .memory2
      { holding .load 0 0 0 0 with memAddress := 10 })
    (s.ticks ∧ s.latches.mem2.active = true ∧ s.latches.mem2.opcode = .op .load ∧
      dataIndex? s.cfg s.latches.mem2.memAddress = some 10) ∧
    ∃ t, step s = .next t ∧ (Memory.read t.dmem 10 == 7 && t.latches.wb.buffer == 0) = true :=
  ⟨by decide, answers (by decide)⟩
/-- A full pipeline that moves on; a JUMP in Execute2 that vanishes. -/
theorem test_witness_in_flight :
    let s := ready (((((inStage .execute1 (holding .nop 0 0 0 0)).setLatch .execute2 (holding .and 0 0 0 0)).setLatch .memory1
      (holding .movc 0 0 0 0)).setLatch .memory2 (holding .add 0 0 0 0)))
    (s.status = .running ∧ s.latches.mem2.active = true ∧ s.latches.mem1.active = true ∧ s.latches.ex2.active = true ∧
      s.latches.ex2.noJump = true ∧ s.latches.ex1.active = true ∧ (holding .jump 0 0 0 0).noJump = false) ∧
    (∃ t, step s = .next t ∧ (t.status == .running && !t.flushedNow) = true) ∧
    ∃ t, step (ready (inStage .execute2 (holding .jump 0 0 0 0))) = .next t ∧ (t.status == .running && !t.flushedNow) = true :=
  ⟨by decide, answers (by decide), answers (by decide)⟩
/-- A flush, with and without FLUSH_FETCH_HOLD. -/
theorem test_witness_flush :
    ∀ h ∈ [true, false], ∃ t, step { ready (inStage .memory1 (holding .bz 0 0 0 0)) with
      brPending := true, brTarget := 4032, cfg := { Config.default with flushFetchHold := h } } = .next t ∧
      (t.status == .running && t.flushedNow && t.cfg.flushFetchHold == h) = true := by
  intro h hh
  simp only [List.mem_cons, List.not_mem_nil, or_false] at hh
  obtain rfl | rfl := hh <;> exact answers (by decide)
/-- E5: a JUMP in Execute1. -/
theorem test_witness_jump :
    let s := ready (inStage .execute1 (holding .jump 0 4016 0 0))
    (s.status = .running ∧ s.latches.ex1.active = true ∧ s.latches.ex1.instr? .rd = some (.jump 1 0) ∧
      s.latches.f.busy = false ∧ s.latches.f.stalled = false) ∧
    ∃ t, step s = .next t ∧ (t.status == .running && !t.flushedNow && t.pc == 4020) = true :=
  ⟨by decide, answers (by decide)⟩
/-- E2: the reader in Decode of the register the producer in Execute1 reserves. -/
theorem test_witness_reservation :
    let s := ready ((inStage .execute1 (holding .add 0 7 5 0)).setLatch .decode { holding .sub 0 0 0 0 with rd := 4, rs1 := 1 })
    (s.status = .running ∧ s.latches.ex1.active = true ∧ s.latches.ex1.instr? .rd = some (.add 1 2 3) ∧
      (Instr.add 1 2 3).destField? = some 1 ∧ s.latches.drf.instr? .rd = some (.sub 4 1 3) ∧ s.latches.drf.busy = false ∧
      (1 : Int) ∈ (Instr.sub 4 1 3).sourceFields) ∧
    ∃ t, step s = .next t ∧ (t.status == .running && !t.flushedNow && t.latches.drf.stalled) = true :=
  ⟨by decide, answers (by decide)⟩

/-- The invariant at a state from which a step fetches an instruction. -/
theorem test_witness_invariant :
    Config.default.wellFormed = true ∧ (ready State.reset).Inv ∧
    ∃ t, step (ready State.reset) = .next t ∧ (t.status == .running) = true := by
  refine ⟨?_, ?_, answers ?_⟩
  · decide
  · constructor <;> decide
  · decide
/-- Words of XLEN bits, at the same state. -/
theorem test_witness_words :
    (ready State.reset).WordsFit ∧ ∃ t, step (ready State.reset) = .next t ∧ (t.status == .running) = true := by
  refine ⟨?_, answers (by decide)⟩
  constructor <;> first | decide | (intro S; cases S <;> decide)
/-- The redirect invariant at a state with a pending redirect and at a state with Fetch frozen. -/
theorem test_witness_redirect :
    (let s := { ready State.reset with jmpPending := true, jmpAddr := 4000 }
     s.RedirectInv ∧ ∃ t, step s = .next t ∧ (t.status == .running) = true) ∧
    (let s := ready (inStage .fetch { bubble false with busy := true })
     s.RedirectInv ∧ ∃ t, step s = .next t ∧ (t.status == .running) = true) := by
  refine ⟨⟨?_, answers ?_⟩, ⟨?_, answers ?_⟩⟩ <;> first | decide | (constructor <;> decide)

/-! ### The host's word at the next fetch -/

/-- The record placed at reset is what the first step fetches. -/
theorem test_with_fetch_word :
    (next? (step (State.reset.withFetchWord 8 0x11))).map (·.latches.f.instr? .rd) = some (some .halt) := by decide
/-- From reset with nothing placed, the first step completes (R135, decision D42). -/
theorem test_reset_completes : (next? (step State.reset)).map (·.status) = some .completed := by decide

end Sys2Proof.Tests
end

section
namespace Sys2Proof.Machine

/-! ### The reset table (R54, R55) -/

/-- `L[F]` is the one latch construction leaves not busy, so that Fetch is active in tick 1 (decision D36). -/
@[simp] theorem State.construct_latches_f (cfg : Config) : (State.construct cfg).latches.f = bubble false := rfl

/-- The latch of every stage but Fetch is a busy bubble at construction. -/
theorem State.construct_latch_of_ne_fetch (cfg : Config) {S : Stage} (hS : S ≠ .fetch) :
    (State.construct cfg).latch S = { bubble false with busy := true } := by
  cases S with
  | fetch => exact absurd rfl hS
  | decode | execute1 | execute2 | memory1 | memory2 | writeback => rfl

/-- A program that lists no data cell starts with every cell at 0 (decision D5). -/
theorem State.construct_read_dmem_of_nil {cfg : Config} (hinit : cfg.dmemInit = []) (a : Nat) :
    Memory.read (State.construct cfg).dmem a = 0 := by
  have hempty : (State.construct cfg).dmem = [] := hinit
  rw [hempty, Memory.read_nil]

/-- Settles O1: data memory and the latches by the lemmas above; every other row of the table is a field of the construction. -/
theorem constructionGivesTheResetTable : Obligations.ConstructionGivesTheResetTable := by
  intro cfg
  exact ⟨rfl, rfl, rfl, State.construct_read_dmem_of_nil, rfl, rfl, rfl, rfl, rfl, rfl, rfl, rfl, rfl, rfl, rfl, rfl, rfl, rfl,
    State.construct_latches_f cfg, fun _ => State.construct_latch_of_ne_fetch cfg⟩

end Sys2Proof.Machine
end

section
namespace Sys2Proof.Machine

/-! ### The stages of an instruction, from the actions of its meaning

`hi` says which actions the meaning of `i` has; each lemma gives what the instruction does in one stage, in the words of the
statements. -/

/-! #### The latch of the running stage -/

/-- The running stage procedure's latch, by the stage's name. -/
theorem State.own_of_stage {s : State} {S : Stage} (hstage : s.stage = S) : s.own = s.latch S := by
  rw [State.own, hstage]

theorem State.setOwn_latch {s : State} {S : Stage} (hstage : s.stage = S) : s.setOwn (s.latch S) = s := by
  rw [State.setOwn, hstage]
  cases S <;> rfl

/-- An active latch moves on: in the four stages that forward as R105 says, the own latch and the next hold it (R102). -/
theorem forward_setOwn {s : State} {S : Stage} {l : Latch} (hstage : s.stage = S)
    (hS : S ∈ [Stage.execute1, .execute2, .memory1, .memory2]) (hactive : l.active = true) :
    forward (s.setOwn l) = s.advanced S l := by
  have hforward := Latch.forwarded_of_active hactive
  subst hstage
  cases hcase : s.stage with
  | fetch | decode | writeback => simp [hcase] at hS
  | execute1 | execute2 | memory1 | memory2 =>
    simp [forward, State.setOwn, State.setLatch, State.latch, Latches.set, Latches.get, State.advanced, hcase, hforward]

/-- The generic end of those stages, after an action that gave the own latch the value `l`. -/
theorem thenRun_forward_setOwn {s : State} {S : Stage} {l : Latch} (hruns : s.runs S)
    (hS : S ∈ [Stage.execute1, .execute2, .memory1, .memory2]) (hactive : l.active = true) :
    thenRun (.next (s.setOwn l)) (fun s => .next (forward s)) = .next (s.advanced S l) := by
  rw [thenRun_of_running _ (by exact hruns.2), forward_setOwn hruns.1 hS hactive]

/-- The generic end of those stages, after no action. -/
theorem thenRun_forward_own {s : State} {S : Stage} (hruns : s.runs S)
    (hS : S ∈ [Stage.execute1, .execute2, .memory1, .memory2]) (hactive : (s.latch S).active = true) :
    thenRun (.next s) (fun s => .next (forward s)) = .next (s.advanced S (s.latch S)) := by
  have hend := thenRun_forward_setOwn hruns hS hactive
  rwa [State.setOwn_latch hruns.1] at hend

/-! #### Decode -/

/-- The check of the first field, then of the rest: the first field out of range is the one that raises (R107, R233). -/
theorem checkField_of_find? {f g : Field} {u v : Int} {rest : List (Field × Int)} {s : State} {k : Nat → Result}
    (hfind : ((g, u) :: rest).find? (fun p => !inRange s.cfg.nreg p.2) = some (f, v))
    (hrest : rest.find? (fun p => !inRange s.cfg.nreg p.2) = some (f, v) →
      ∀ r, k r = raise .addressOutOfRange s.own.pc (.register f v) s) :
    checkField g u s k = raise .addressOutOfRange s.own.pc (.register f v) s := by
  obtain ⟨r, rfl, hr, hnext⟩ | ⟨hout, hraise⟩ := checkField_cases g u s k
  · rw [hnext, hrest (by simpa [List.find?_cons, hr] using hfind)]
  · obtain ⟨rfl, rfl⟩ : g = f ∧ u = v := by simpa [List.find?_cons, hout] using hfind
    exact hraise

theorem decodeRI_of_find? {rd rs1 : Int} {f : Field} {v : Int} {s : State}
    (hfind : [(Field.rd, rd), (.rs1, rs1)].find? (fun p => !inRange s.cfg.nreg p.2) = some (f, v)) :
    decodeRI rd rs1 s = raise .addressOutOfRange s.own.pc (.register f v) s :=
  checkField_of_find? hfind fun hrs1 _ => checkField_of_find? hrs1 fun hnone => nomatch hnone

theorem decodeR3_of_find? {rd rs1 rs2 : Int} {f : Field} {v : Int} {s : State}
    (hfind : [(Field.rd, rd), (.rs1, rs1), (.rs2, rs2)].find? (fun p => !inRange s.cfg.nreg p.2) = some (f, v)) :
    decodeR3 rd rs1 rs2 s = raise .addressOutOfRange s.own.pc (.register f v) s :=
  checkField_of_find? hfind fun hrs1 _ => checkField_of_find? hrs1 fun hrs2 _ =>
    checkField_of_find? hrs2 fun hnone => nomatch hnone

theorem decodeRI_of_lt {rd a : Nat} {s : State} (hrd : rd < s.cfg.nreg) (ha : a < s.cfg.nreg) :
    decodeRI rd a s = .next (gateAndRead [(.rs1, a)] s) := by
  rw [decodeRI, checkField_of_lt _ hrd, checkField_of_lt _ ha]

theorem decodeR3_of_lt {rd a b : Nat} {s : State} (hrd : rd < s.cfg.nreg) (ha : a < s.cfg.nreg) (hb : b < s.cfg.nreg) :
    decodeR3 rd a b s = .next (gateAndRead [(.rs1, a), (.rs2, b)] s) := by
  rw [decodeR3, checkField_of_lt _ hrd, checkField_of_lt _ ha, checkField_of_lt _ hb]

section
variable {i : Instr} {d e1 e2 m1 m2 w : State → Result} {c : Bool}

/-- A Decode action that raises on the first field out of range gives the field check of the statements. -/
theorem faultsOnFields_of_raise (hi : ∀ s, exec i s = perform s d e1 e2 m1 m2 w c)
    (hraise : ∀ (f : Field) (v : Int) (s : State),
      (i.registerFields s.cfg.jumpBase).find? (fun p => !inRange s.cfg.nreg p.2) = some (f, v) →
      d s = raise .addressOutOfRange s.own.pc (.register f v) s) :
    faultsOnFields i := by
  rintro f v s ⟨hstage, -⟩ hfind
  rw [hi, perform_decode hstage, hraise f v s hfind, raise_eq, thenRun_of_stopped _ (by simp), State.own_of_stage hstage]
  rfl

/-- A Decode action that is the gate on `srcs` when the fields are in range gives the gate of the statements (R108). -/
theorem gatedOn_of_gateAndRead {srcs : List (ValueSlot × Nat)} (hi : ∀ s, exec i s = perform s d e1 e2 m1 m2 w c)
    (hgate : ∀ s, i.fieldsInRange s.cfg = true → d s = .next (gateAndRead srcs s)) :
    gatedOn i (srcs.map (·.2)) (fun s l => readSources s l srcs) := by
  rintro s ⟨hstage, hrunning⟩ hfields
  rw [hi, perform_decode hstage, hgate s hfields]
  constructor
  · rintro ⟨r, hr, hreserved⟩
    obtain ⟨p, hp, rfl⟩ := List.mem_map.mp hr
    rw [gateAndRead_of_reserved ⟨p, hp, hreserved⟩, thenRun_of_running _ (by exact hrunning)]
    rfl
  · intro hvalid
    rw [gateAndRead_of_valid fun p hp => hvalid p.2 (List.mem_map_of_mem hp), thenRun_of_running _ (by exact hrunning)]
    rfl

/-! #### The stages with no action (R105) -/

theorem forwardsOnly_execute2 (hi : ∀ s, exec i s = perform s d e1 .next m1 m2 w c) : forwardsOnly i .execute2 := by
  intro s hruns hactive
  rw [hi, perform_execute2 hruns.1, thenRun_forward_own hruns (by decide) hactive]

theorem forwardsOnly_memory1 (hi : ∀ s, exec i s = perform s d e1 e2 .next m2 w c) : forwardsOnly i .memory1 := by
  intro s hruns hactive
  rw [hi, perform_memory1 hruns.1, thenRun_forward_own hruns (by decide) hactive]

/-! #### Execute1, Memory2 and Writeback -/

/-- Reserving `rd` and then giving the own latch the value `e` is Execute1 of the statements (R113), when `e` keeps the latch active
and does not read the scoreboard. -/
theorem reservesIn1_of_reserve {rd : Nat} {u : State → State} {e : State → Latch → Latch}
    (hi : ∀ s, exec i s = perform s d (andAlso (reserve rd) fun s => .next (u s)) e2 m1 m2 w c)
    (hu : ∀ s, u s = s.setOwn (e s s.own)) (hscoreboard : ∀ s b, e (s.setValid rd b) = e s)
    (hactive : ∀ s l, (e s l).active = l.active) : reservesIn1 i rd e := by
  intro s hruns hrd hl
  have hreserved : (s.setValid rd false).runs .execute1 := hruns
  have haction : andAlso (reserve rd) (fun s => .next (u s)) s =
      .next ((s.setValid rd false).setOwn (e s s.latches.ex1)) := by
    rw [andAlso, reserve_of_lt hrd, thenRun_of_running _ hreserved.2, hu, hscoreboard, State.own_of_stage hreserved.1]
    rfl
  rw [hi, perform_execute1 hruns.1, haction, thenRun_forward_setOwn hreserved (by decide) ((hactive s _).trans hl)]
  rfl

/-- Execute1 of a load: the reservation and the effective address. -/
theorem reservesIn1_of_executeLoadAddress {rd : Nat} {ea : Nat → Latch → Int}
    (hi : ∀ s, exec i s = perform s d (executeLoadAddress rd fun s => ea s.cfg.xlen s.own) e2 m1 m2 w c) :
    reservesIn1 i rd (fun s l => { l with memAddress := ea s.cfg.xlen l }) :=
  reservesIn1_of_reserve hi (fun _ => rfl) (fun _ _ => rfl) (fun _ _ => rfl)

/-- Memory2 of a load whose address names the cell `k`. -/
theorem loadCell_of_inRange {s : State} {k : Nat} (haddress : s.own.memAddress = (k : Int)) (hk : k < s.cfg.dmemSize) :
    loadCell s = .next (setBuffer (Memory.read s.dmem k) s) := by
  have hindex : dataIndex? s.cfg s.own.memAddress = some k := dataIndex?_eq_some.mpr ⟨haddress, hk⟩
  simp only [loadCell, memRead, hindex]

/-- Memory2 of a load whose address names no cell. -/
theorem loadCell_of_not_inRange {s : State} (hout : ¬ (0 ≤ s.own.memAddress ∧ s.own.memAddress < (s.cfg.dmemSize : Int))) :
    loadCell s = raise .addressOutOfRange s.own.pc (.data s.own.memAddress) s := by
  have hindex : dataIndex? s.cfg s.own.memAddress = none := dataIndex?_eq_none.mpr hout
  simp only [loadCell, memRead, hindex]

/-- A load that names a cell leaves Memory2 with the cell's word in `buffer` (R64, R190, R191). -/
theorem exec_memory2_of_loadCell {s : State} {k : Nat} (hi : ∀ s, exec i s = perform s d e1 e2 m1 loadCell w c)
    (hruns : s.runs .memory2) (hactive : s.latches.mem2.active = true)
    (haddress : s.latches.mem2.memAddress = (k : Int)) (hk : k < s.cfg.dmemSize) :
    exec i s = .next (s.advanced .memory2 { s.latches.mem2 with buffer := Memory.read s.dmem k }) := by
  have hown : s.own = s.latches.mem2 := State.own_of_stage hruns.1
  rw [hi, perform_memory2 hruns.1, loadCell_of_inRange (hown ▸ haddress) hk, setBuffer, hown]
  exact thenRun_forward_setOwn hruns (by decide) hactive

/-- A load that names no cell raises in Memory2, and nothing else happens (R64, R231). -/
theorem exec_memory2_of_loadCell_raised {s : State} (hi : ∀ s, exec i s = perform s d e1 e2 m1 loadCell w c)
    (hruns : s.runs .memory2)
    (hout : ¬ (0 ≤ s.latches.mem2.memAddress ∧ s.latches.mem2.memAddress < (s.cfg.dmemSize : Int))) :
    exec i s = .next (s.raised .addressOutOfRange s.latches.mem2.pc (.data s.latches.mem2.memAddress)) := by
  have hown : s.own = s.latches.mem2 := State.own_of_stage hruns.1
  rw [hi, perform_memory2 hruns.1, loadCell_of_not_inRange (hown ▸ hout), raise_eq, thenRun_of_stopped _ (by simp), hown]
  rfl

/-- The release writes the scoreboard bit and nothing else, and not even that with a producer of the same register behind (R131). -/
theorem scoreboardRelease_eq (r : Nat) (s : State) :
    scoreboardRelease r r s = { s with valid := if s.sameWriterBehind r then s.valid else s.valid.set r true } := by
  have hbehind : sameDestinationBehind r s = s.sameWriterBehind r := rfl
  rw [scoreboardRelease, hbehind]
  split <;> rfl

/-- A Writeback action that is the plain commit is Writeback of the statements, with Z left as it was (R130, R131, R134). -/
theorem commitsIn_of_commit {rd : Nat} (hi : ∀ s, exec i s = perform s d e1 e2 m1 m2 (commit rd)) :
    commitsIn i rd (fun z _ => z) := by
  rintro s ⟨hstage, hrunning⟩ hrd -
  rw [hi, perform_writeback hstage, commit_of_lt hrd, thenRun_of_running _ (by simpa using hrunning),
    scoreboardRelease_eq, State.own_of_stage hstage]
  rfl

end

/-! ### Loads (R189 to R191) -/

theorem exec_load (rd a imm : Int) (s : State) :
    exec (.load rd a imm) s = perform s (decode := decodeRI rd a)
      (execute1 := executeLoadAddress rd fun s => effectiveAddress s.cfg.xlen s.own.rs1Value imm)
      (memory2 := loadCell) (writeback := commit rd) := rfl

theorem exec_ldr (rd a b : Int) (s : State) :
    exec (.ldr rd a b) s = perform s (decode := decodeR3 rd a b)
      (execute1 := executeLoadAddress rd fun s => effectiveAddress s.cfg.xlen s.own.rs1Value s.own.rs2Value)
      (memory2 := loadCell) (writeback := commit rd) := rfl

theorem load_gatedOn (rd a : Nat) (imm : Int) :
    gatedOn (.load rd a imm) [a] (fun s l => { l with rs1Value := s.readReg a }) := by
  refine gatedOn_of_gateAndRead (srcs := [(.rs1, a)]) (exec_load rd a imm) fun s hfields => ?_
  obtain ⟨hrd, ha⟩ : rd < s.cfg.nreg ∧ a < s.cfg.nreg := by
    simpa [Instr.fieldsInRange, Instr.registerFields] using hfields
  exact decodeRI_of_lt hrd ha

theorem ldr_gatedOn (rd a b : Nat) :
    gatedOn (.ldr rd a b) [a, b] (fun s l => { l with rs1Value := s.readReg a, rs2Value := s.readReg b }) := by
  refine gatedOn_of_gateAndRead (srcs := [(.rs1, a), (.rs2, b)]) (exec_ldr rd a b) fun s hfields => ?_
  obtain ⟨hrd, ha, hb⟩ : rd < s.cfg.nreg ∧ a < s.cfg.nreg ∧ b < s.cfg.nreg := by
    simpa [Instr.fieldsInRange, Instr.registerFields] using hfields
  exact decodeR3_of_lt hrd ha hb

/-- Settles O7: Decode and Execute1 for each of the two loads, then the later stages once for both, whose actions are the same. -/
theorem loadsFollowTheirRules : Obligations.LoadsFollowTheirRules := by
  unfold Obligations.LoadsFollowTheirRules
  constructor
  · intro rd a b imm
    exact ⟨Laws.OpcodeOfEncoding.load rd a imm,
      faultsOnFields_of_raise (exec_load rd a imm) fun _ _ _ => decodeRI_of_find?,
      Laws.OpcodeOfEncoding.ldr rd a b,
      faultsOnFields_of_raise (exec_ldr rd a b) fun _ _ _ => decodeR3_of_find?⟩
  · intro rd a b imm
    refine ⟨load_gatedOn rd a imm, ldr_gatedOn rd a b,
      reservesIn1_of_executeLoadAddress (ea := fun n l => effectiveAddress n l.rs1Value imm) (exec_load rd a imm),
      reservesIn1_of_executeLoadAddress (ea := fun n l => effectiveAddress n l.rs1Value l.rs2Value) (exec_ldr rd a b), ?_⟩
    intro i hmem
    obtain ⟨d, e1, hi⟩ : ∃ d e1, ∀ s, exec i s = perform s d e1 (memory2 := loadCell) (writeback := commit rd) := by
      obtain rfl | rfl : i = .load rd a imm ∨ i = .ldr rd a b := by simpa using hmem
      · exact ⟨_, _, exec_load rd a imm⟩
      · exact ⟨_, _, exec_ldr rd a b⟩
    exact ⟨forwardsOnly_execute2 hi, forwardsOnly_memory1 hi,
      fun _ hruns hactive => ⟨fun _ => exec_memory2_of_loadCell hi hruns hactive, exec_memory2_of_loadCell_raised hi hruns⟩,
      commitsIn_of_commit hi⟩

end Sys2Proof.Machine
end

section
namespace Sys2Proof.Machine

/-! ### What an instruction may write, in each stage -/

/-- `t`, what `i` made of `s` in stage `S`, is `s` in every field but the latches and those that `i`'s rule writes there (R23, R25,
R28, R30 to R39, R47). `{}` proves it of an operation whose simp lemmas, with the hypotheses at hand, give all these fields. -/
structure Frame (i : Instr) (S : Stage) (s t : State) : Prop where
  stage : t.stage = s.stage := by simp_all
  cfg : t.cfg = s.cfg := by simp_all
  clock : t.clock = s.clock := by simp_all
  x : ¬ (S = .writeback ∧ i.destField?.isSome = true) → t.x = s.x := by simp_all
  valid : ¬ ((S = .execute1 ∨ S = .writeback) ∧ i.destField?.isSome = true) → t.valid = s.valid := by simp_all
  pc : S ≠ .fetch → ¬ (S = .execute1 ∧ i.opcode = .jump) → ¬ (S = .memory1 ∧ i.isBranch = true) →
    t.pc = s.pc := by simp_all
  z : ¬ (S = .writeback ∧ i.opcode.isFlagProducer = true) → ¬ ((S = .memory1 ∨ S = .writeback) ∧ i.isBranch = true) →
    t.z = s.z := by simp_all
  dmem : ¬ (S = .memory1 ∧ i.isStore = true) → t.dmem = s.dmem := by simp_all
  completed : S ≠ .writeback → t.completed = s.completed := by simp_all
  programSize : ¬ (S = .writeback ∧ i.opcode = .halt) → t.programSize = s.programSize := by simp_all
  bstall : ¬ ((S = .decode ∨ S = .writeback) ∧ i.isBranch = true) → t.bstall = s.bstall := by simp_all
  brPending : ¬ ((S = .execute2 ∨ S = .memory1) ∧ i.isBranch = true) → t.brPending = s.brPending := by simp_all
  brTarget : ¬ (S = .execute2 ∧ i.isBranch = true) → t.brTarget = s.brTarget := by simp_all
  jmpAddr : ¬ (S = .execute1 ∧ i.opcode = .jump) → t.jmpAddr = s.jmpAddr := by simp_all
  jmpPending : ¬ (S = .execute1 ∧ i.opcode = .jump) → ¬ (S = .memory1 ∧ i.isBranch = true) →
    t.jmpPending = s.jmpPending := by simp_all
  haltFlag : ¬ (S = .decode ∧ i.opcode = .halt) → t.haltFlag = s.haltFlag := by simp_all
  flushedNow : ¬ (S = .memory1 ∧ i.isBranch = true) → t.flushedNow = s.flushedNow := by simp_all
  status : S ≠ .decode → ¬ (S = .memory1 ∧ i.isStore = true) → ¬ (S = .memory2 ∧ i.isLoad = true) →
    t.status = s.status := by simp_all

/-- The action `a` writes in stage `S` only what `i` may write there. -/
def Framed (i : Instr) (S : Stage) (a : State → Result) : Prop :=
  ∀ s t, a s = .next t → Frame i S s t

section
variable {i : Instr} {S : Stage} {s t u : State}

theorem Frame.refl (s : State) : Frame i S s s where

theorem Frame.trans (h : Frame i S s t) (h' : Frame i S t u) : Frame i S s u where
  stage := h'.stage.trans h.stage
  cfg := h'.cfg.trans h.cfg
  clock := h'.clock.trans h.clock
  x ok := (h'.x ok).trans (h.x ok)
  valid ok := (h'.valid ok).trans (h.valid ok)
  pc ok ok' ok'' := (h'.pc ok ok' ok'').trans (h.pc ok ok' ok'')
  z ok ok' := (h'.z ok ok').trans (h.z ok ok')
  dmem ok := (h'.dmem ok).trans (h.dmem ok)
  completed ok := (h'.completed ok).trans (h.completed ok)
  programSize ok := (h'.programSize ok).trans (h.programSize ok)
  bstall ok := (h'.bstall ok).trans (h.bstall ok)
  brPending ok := (h'.brPending ok).trans (h.brPending ok)
  brTarget ok := (h'.brTarget ok).trans (h.brTarget ok)
  jmpAddr ok := (h'.jmpAddr ok).trans (h.jmpAddr ok)
  jmpPending ok ok' := (h'.jmpPending ok ok').trans (h.jmpPending ok ok')
  haltFlag ok := (h'.haltFlag ok).trans (h.haltFlag ok)
  flushedNow ok := (h'.flushedNow ok).trans (h.flushedNow ok)
  status ok ok' ok'' := (h'.status ok ok' ok'').trans (h.status ok ok' ok'')

theorem Frame.ite {p : Prop} [Decidable p] (h : Frame i S s t) (h' : Frame i S s u) : Frame i S s (if p then t else u) := by
  split
  · exact h
  · exact h'

/-! #### Actions from their parts -/

theorem Framed.of_frame {g : State → State} (h : ∀ s, Frame i S s (g s)) : Framed i S fun s => .next (g s) := by
  intro s t ht
  cases ht
  exact h s

theorem Framed.next : Framed i S .next := Framed.of_frame Frame.refl

theorem Framed.thenRun {a : State → Result} {f : State → State → Result} (ha : Framed i S a)
    (hf : ∀ s, Framed i S (f s)) :
    Framed i S fun s => thenRun (a s) (f s) := by
  intro s t h
  obtain ⟨u, hu, ⟨-, ht⟩ | ⟨-, rfl⟩⟩ := thenRun_next h
  · exact (ha s u hu).trans (hf s u t ht)
  · exact ha s u hu

theorem raise_frame {kind : FaultKind} {pc : Int} {info : FaultInfo}
    (hS : S = .decode ∨ S = .memory1 ∧ i.isStore = true ∨ S = .memory2 ∧ i.isLoad = true)
    (h : raise kind pc info s = .next t) : Frame i S s t := by
  cases h
  exact { status := fun hd h1 h2 => absurd hS (by tauto) }

theorem Framed.checkField {f : State → Field} {v : Int} {k : Nat → State → Result} (hk : ∀ r, Framed i .decode (k r)) :
    Framed i .decode fun s => checkField (f s) v s fun r => k r s := by
  intro s t h
  obtain ⟨r, -, -, hr⟩ | ⟨-, hr⟩ := checkField_cases (f s) v s fun r => k r s
  · exact hk r s t (hr.symm.trans h)
  · exact raise_frame (.inl rfl) (hr.symm.trans h)

theorem Framed.withDest {rd : Int} {k : Nat → State → Result} (hk : ∀ r, Framed i S (k r)) :
    Framed i S fun s => withDest rd s fun r => k r s := by
  intro s t h
  obtain ⟨r, -, -, hr⟩ := withDest_next h
  exact hk r s t hr

/-! #### The actions of the meanings -/

theorem decodeRI_framed (rd rs1 : Int) : Framed i .decode (decodeRI rd rs1) :=
  .checkField fun _ => .checkField fun _ => .of_frame fun _ => {}

theorem decodeR3_framed (rd rs1 rs2 : Int) : Framed i .decode (decodeR3 rd rs1 rs2) :=
  .checkField fun _ => .checkField fun _ => .checkField fun _ => .of_frame fun _ => {}

theorem reserve_framed (hi : i.destField?.isSome = true) (rd : Int) : Framed i .execute1 (reserve rd) :=
  .withDest fun _ => .of_frame fun _ => {}

theorem executeResult_framed (hi : i.destField?.isSome = true) (rd : Int) (v : State → Int) :
    Framed i .execute1 (executeResult rd v) :=
  (reserve_framed hi rd).thenRun fun _ => .of_frame fun _ => {}

theorem executeLoadAddress_framed (hi : i.destField?.isSome = true) (rd : Int) (ea : State → Int) :
    Framed i .execute1 (executeLoadAddress rd ea) :=
  (reserve_framed hi rd).thenRun fun _ => .of_frame fun _ => {}

theorem loadCell_framed (hi : i.isLoad = true) : Framed i .memory2 loadCell := by
  intro s t h
  obtain ⟨c, -, hc⟩ | ⟨-, hc⟩ := memRead_cases s.own.memAddress s fun v => .next (setBuffer v s)
  · cases hc.symm.trans h
    exact {}
  · exact raise_frame (.inr (.inr ⟨rfl, hi⟩)) (hc.symm.trans h)

theorem storeCell_framed (hi : i.isStore = true) : Framed i .memory1 storeCell := by
  intro s t h
  obtain ⟨c, -, hc⟩ | ⟨-, hc⟩ := memWrite_cases s.own.memAddress s.own.rs1Value s
  · cases hc.symm.trans h
    exact {}
  · exact raise_frame (.inr (.inl ⟨rfl, hi⟩)) (hc.symm.trans h)

theorem commit_framed (hi : i.destField?.isSome = true) (rd : Int) : Framed i .writeback (commit rd) :=
  .withDest fun _ => .of_frame fun _ => {}

theorem commitWithFlag_framed (hi : i.destField?.isSome = true) (hflag : i.opcode.isFlagProducer = true) (rd : Int) :
    Framed i .writeback (commitWithFlag rd) :=
  (commit_framed hi rd).thenRun fun _ => .of_frame fun _ => {}

theorem resolveBranch_framed (hi : i.isBranch = true) : Framed i .memory1 resolveBranch :=
  .of_frame fun s => .ite {} (.refl s)

theorem retireBranch_framed (hi : i.isBranch = true) : Framed i .writeback retireBranch :=
  .of_frame fun _ => {}

theorem branchBudget_frame (hi : i.isBranch = true) (s : State) : Frame i .decode s (branchBudget s) where

theorem stageTarget_frame (hi : i.isBranch = true) (imm : Int) (s : State) : Frame i .execute2 s (stageTarget imm s) where

theorem jumpRedirect_frame (hi : i.opcode = .jump) (imm : Int) (s : State) : Frame i .execute1 s (jumpRedirect imm s) where

theorem freezeFetch_frame (hi : i.opcode = .halt) (s : State) : Frame i .decode s (freezeFetch s) where

/-! #### The meanings -/

theorem frame_of_perform {d e1 e2 m1 m2 w : State → Result} {c : State → Bool}
    (hi : ∀ s, exec i s = perform s d e1 e2 m1 m2 w (c s)) (h : exec i s = .next t)
    (hd : Framed i .decode d) (he1 : Framed i .execute1 e1 := by exact .next) (he2 : Framed i .execute2 e2 := by exact .next)
    (hm1 : Framed i .memory1 m1 := by exact .next) (hm2 : Framed i .memory2 m2 := by exact .next)
    (hw : Framed i .writeback w := by exact .next) : Frame i s.stage s t := by
  rw [hi] at h
  cases hstage : s.stage with
  | fetch =>
    cases (perform_fetch hstage).symm.trans h
    exact {}
  | decode => exact hd.thenRun (fun _ => .of_frame fun _ => {}) s t ((perform_decode hstage).symm.trans h)
  | execute1 => exact he1.thenRun (fun _ => .of_frame fun _ => {}) s t ((perform_execute1 hstage).symm.trans h)
  | execute2 => exact he2.thenRun (fun _ => .of_frame fun _ => {}) s t ((perform_execute2 hstage).symm.trans h)
  | memory1 => exact hm1.thenRun (fun _ => .of_frame fun _ => {}) s t ((perform_memory1 hstage).symm.trans h)
  | memory2 => exact hm2.thenRun (fun _ => .of_frame fun _ => {}) s t ((perform_memory2 hstage).symm.trans h)
  | writeback => exact hw.thenRun (fun _ => .of_frame fun _ => {}) s t ((perform_writeback hstage).symm.trans h)

/-- An instruction writes, in each stage, only what its rule names there. -/
theorem exec_frame (h : exec i s = .next t) : Frame i s.stage s t := by
  cases i with
  | movc rd imm =>
    exact frame_of_perform (fun _ => rfl) h (.checkField fun _ => .of_frame fun _ => {}) (he1 := executeResult_framed rfl _ _)
      (hw := commit_framed rfl _)
  | add rd a b | sub rd a b | mul rd a b =>
    exact frame_of_perform (fun _ => rfl) h (decodeR3_framed _ _ _) (he1 := executeResult_framed rfl _ _)
      (hw := commitWithFlag_framed rfl rfl _)
  | addl rd a imm | subl rd a imm =>
    exact frame_of_perform (fun _ => rfl) h (decodeRI_framed _ _) (he1 := executeResult_framed rfl _ _)
      (hw := commitWithFlag_framed rfl rfl _)
  | and rd a b | or rd a b | xor rd a b =>
    exact frame_of_perform (fun _ => rfl) h (decodeR3_framed _ _ _) (he1 := reserve_framed rfl _) (he2 := .of_frame fun _ => {})
      (hw := commit_framed rfl _)
  | load rd a imm =>
    exact frame_of_perform (fun _ => rfl) h (decodeRI_framed _ _) (he1 := executeLoadAddress_framed rfl _ _)
      (hm2 := loadCell_framed rfl) (hw := commit_framed rfl _)
  | ldr rd a b =>
    exact frame_of_perform (fun _ => rfl) h (decodeR3_framed _ _ _) (he1 := executeLoadAddress_framed rfl _ _)
      (hm2 := loadCell_framed rfl) (hw := commit_framed rfl _)
  | store a b imm =>
    exact frame_of_perform (fun _ => rfl) h (.checkField fun _ => .checkField fun _ => .of_frame fun _ => {})
      (he1 := .of_frame fun _ => {}) (hm1 := storeCell_framed rfl)
  | str a b c =>
    exact frame_of_perform (fun _ => rfl) h (.checkField fun _ => .checkField fun _ => .checkField fun _ => .of_frame fun _ => {})
      (he1 := .of_frame fun _ => {}) (hm1 := storeCell_framed rfl)
  | bz imm =>
    exact frame_of_perform (fun _ => rfl) h (.of_frame fun s => branchBudget_frame rfl s)
      (he2 := .of_frame fun s => .ite (stageTarget_frame rfl imm s) (.refl s))
      (hm1 := resolveBranch_framed rfl) (hw := retireBranch_framed rfl)
  | bnz imm =>
    exact frame_of_perform (fun _ => rfl) h (.of_frame fun s => branchBudget_frame rfl s)
      (he2 := .of_frame fun s => .ite (.refl s) (stageTarget_frame rfl imm s))
      (hm1 := resolveBranch_framed rfl) (hw := retireBranch_framed rfl)
  | jump base imm =>
    exact frame_of_perform (fun _ => rfl) h (.checkField fun _ => .of_frame fun _ => {})
      (he1 := .of_frame fun s => jumpRedirect_frame rfl imm s) (he2 := .of_frame fun _ => {})
  | halt =>
    exact frame_of_perform (fun _ => rfl) h (.of_frame fun s => freezeFetch_frame rfl s)
      (hw := .of_frame fun _ => { programSize := fun hne => absurd ⟨rfl, rfl⟩ hne })
  | nop =>
    exact frame_of_perform (fun _ => rfl) h (.of_frame fun _ => {})

end

/-! ### Writeback of the register producers (R130 to R132, R134) -/

section
variable {i : Instr} {s t : State} {v : Int} {r : Nat}

/-- Writeback's action of a producer `i` with destination field `v`: the commit, with Z for a flag producer. -/
def commitAs (i : Instr) (v : Int) : State → Result :=
  if i.opcode.isFlagProducer then commitWithFlag v else commit v

theorem exec_producer (hdest : i.destField? = some v) :
    ∃ d e1 e2 m2, ∀ s, exec i s = perform s d e1 e2 (memory2 := m2) (writeback := commitAs i v) := by
  cases i with
  | store _ _ _ | str _ _ _ | bz _ | bnz _ | jump _ _ | halt | nop => cases hdest
  | _ =>
    cases hdest
    exact ⟨_, _, _, _, fun _ => rfl⟩

theorem exec_writeback_of_destField? (hdest : i.destField? = some v) (hstage : s.stage = .writeback) :
    exec i s = thenRun (commitAs i v s) fun s => .next (countRetirement true s) := by
  obtain ⟨d, e1, e2, m2, hexec⟩ := exec_producer hdest
  rw [hexec, perform_writeback hstage]

/-- A flag producer is a register producer (R82). -/
theorem exists_destField?_of_isFlagProducer (hflag : i.opcode.isFlagProducer = true) : ∃ v, i.destField? = some v := by
  cases i with
  | add rd _ _ | addl rd _ _ | sub rd _ _ | subl rd _ _ | mul rd _ _ => exact ⟨rd, rfl⟩
  | _ => cases hflag

/-- What a stage's generic end leaves as it was. -/
theorem endedWith_keeps {α : Type} (p : State → α) {f : State → State} {u : State} (hf : p (f u) = p u) :
    p (endedWith f u) = p u := by
  unfold endedWith
  split
  · exact hf
  · rfl

theorem commit_writes_x (h : commit v s = .next t) :
    ∃ r : Nat, v = (r : Int) ∧ r < s.cfg.nreg ∧ t.x = s.x.set r s.own.buffer := by
  obtain ⟨r, hv, hr, ht⟩ := withDest_next h
  cases ht
  exact ⟨r, hv, hr, by simp⟩

theorem commitAs_writes_x (h : commitAs i v s = .next t) :
    ∃ r : Nat, v = (r : Int) ∧ r < s.cfg.nreg ∧ t.x = s.x.set r s.own.buffer := by
  unfold commitAs at h
  split at h
  · obtain ⟨u, hu, rfl⟩ := thenRun_next_end h
    obtain ⟨r, hv, hr, hx⟩ := commit_writes_x hu
    exact ⟨r, hv, hr, (endedWith_keeps State.x (by rfl)).trans hx⟩
  · exact commit_writes_x h

/-- A producer's commit to a register that exists, while the run goes on. -/
theorem commitAs_of_lt (hruns : s.runs .writeback) (hr : r < s.cfg.nreg) :
    commitAs i r s = .next { s with
      x := s.x.set r s.latches.wb.buffer
      valid := if s.sameWriterBehind r then s.valid else s.valid.set r true
      z := if i.opcode.isFlagProducer then decide (s.latches.wb.buffer = 0) else s.z } := by
  have hcommit := commit_of_lt hr
  rw [scoreboardRelease_eq, State.own_of_stage hruns.1] at hcommit
  unfold commitAs
  split
  · rw [commitWithFlag, thenRun_eq _ hcommit (by exact hruns.2), State.own_of_stage hruns.1]
    rfl
  · exact hcommit

/-- Writeback of a register producer whose destination exists is the commit of the statements, Z for a flag producer only. -/
theorem exec_writeback_eq_committed (hruns : s.runs .writeback) (hdest : i.destField? = some (r : Int)) (hr : r < s.cfg.nreg) :
    exec i s = .next (s.committed r (if i.opcode.isFlagProducer then decide (s.latches.wb.buffer = 0) else s.z)) := by
  rw [exec_writeback_of_destField? hdest hruns.1, thenRun_eq _ (commitAs_of_lt hruns hr) (by exact hruns.2)]
  rfl

end

/-- Settles O17: the first clause is the frame of registers, the second the commit of the destination. -/
theorem registersWrittenOnlyByProducersInWriteback : Obligations.RegistersWrittenOnlyByProducersInWriteback := by
  intro i s t h
  refine ⟨(exec_frame h).x, fun hstage v hdest => ?_⟩
  rw [exec_writeback_of_destField? hdest hstage] at h
  obtain ⟨u, hu, rfl⟩ := thenRun_next_end h
  have hown : s.own = s.latches.wb := State.own_of_stage hstage
  rw [endedWith_keeps State.x (countRetirement_x u true), ← hown]
  exact commitAs_writes_x hu

/-! #### The release (R131) -/

section
variable {s : State} {r : Nat}

theorem State.committed_isValid_of_ne (s : State) (z : Bool) {q : Nat} (hne : q ≠ r) :
    (s.committed r z).isValid q = s.isValid q := by
  unfold State.committed State.isValid
  split
  · rfl
  · simp [List.getElem?_set_ne hne.symm]

theorem State.committed_isValid_of_behind (z : Bool) (hbehind : s.sameWriterBehind r = true) :
    (s.committed r z).isValid r = s.isValid r := by
  simp [State.committed, State.isValid, hbehind]

theorem State.committed_isValid_of_not_behind (z : Bool) (hbehind : s.sameWriterBehind r = false) (hr : r < s.valid.length) :
    (s.committed r z).isValid r = true := by
  simp [State.committed, State.isValid, hbehind, hr]

theorem State.committed_valid_length (s : State) (r : Nat) (z : Bool) : (s.committed r z).valid.length = s.valid.length := by
  unfold State.committed
  split <;> simp

end

/-- Settles O19: the committed state's scoreboard, at the destination and elsewhere. -/
theorem releaseFollowsItsRule : Obligations.ReleaseFollowsItsRule := by
  intro i rd s hruns hdest hrd
  exact ⟨_, exec_writeback_eq_committed hruns hdest hrd, State.committed_valid_length s rd _,
    fun hbehind hreserved => (State.committed_isValid_of_behind _ hbehind).trans hreserved,
    State.committed_isValid_of_not_behind _, fun _ hne => State.committed_isValid_of_ne s _ hne⟩

/-! ### The zero flag (R30, R132) -/

section
variable {i : Instr} {s t : State}

/-- Writeback of a flag producer sets Z to whether the committed value is 0. -/
theorem exec_writeback_z_of_isFlagProducer (hruns : s.runs .writeback) (hflag : i.opcode.isFlagProducer = true)
    (h : exec i s = .next t) : t.z = decide (s.latches.wb.buffer = 0) := by
  obtain ⟨v, hdest⟩ := exists_destField?_of_isFlagProducer hflag
  obtain ⟨r, rfl, hr, -⟩ := (registersWrittenOnlyByProducersInWriteback i s t h).2 hruns.1 v hdest
  cases (exec_writeback_eq_committed hruns hdest hr).symm.trans h
  simp [State.committed, hflag]

/-- Both branches resolve in Memory1 and retire in Writeback alike (R121, R210, R211). -/
theorem exec_branch (hi : i.isBranch = true) :
    ∃ d e2, ∀ s, exec i s =
      perform s (decode := d) (execute2 := e2) (memory1 := resolveBranch) (writeback := retireBranch) := by
  cases i with
  | bz _ | bnz _ => exact ⟨_, _, fun _ => rfl⟩
  | _ => cases hi

theorem exec_memory1_z_of_isBranch (hstage : s.stage = .memory1) (hi : i.isBranch = true) (h : exec i s = .next t) :
    t.z = if s.brPending then false else s.z := by
  obtain ⟨d, e2, hexec⟩ := exec_branch hi
  rw [hexec, perform_memory1 hstage] at h
  obtain ⟨u, hu, rfl⟩ := thenRun_next_end h
  cases hu
  rw [endedWith_keeps State.z (forward_z _)]
  split <;> rfl

theorem exec_writeback_z_of_isBranch (hstage : s.stage = .writeback) (hi : i.isBranch = true) (h : exec i s = .next t) :
    t.z = false := by
  obtain ⟨d, e2, hexec⟩ := exec_branch hi
  rw [hexec, perform_writeback hstage] at h
  obtain ⟨u, hu, rfl⟩ := thenRun_next_end h
  cases hu
  exact endedWith_keeps State.z (countRetirement_z _ true)

end

/-- Settles O22: the three places one by one, and the frame of Z everywhere else. -/
theorem zeroFlagWrittenInThreePlaces : Obligations.ZeroFlagWrittenInThreePlaces := by
  intro i s t hrunning h
  split_ifs with hflag hcommit hretire
  · exact exec_writeback_z_of_isFlagProducer ⟨hflag.1, hrunning⟩ hflag.2 h
  · obtain ⟨hstage, hi, hpending⟩ := hcommit
    rw [exec_memory1_z_of_isBranch hstage hi h, if_pos hpending]
  · exact exec_writeback_z_of_isBranch hretire.1 hretire.2 h
  · by_cases hbranch : s.stage = .memory1 ∧ i.isBranch = true
    · obtain ⟨hstage, hi⟩ := hbranch
      rw [exec_memory1_z_of_isBranch hstage hi h, if_neg fun hpending => hcommit ⟨hstage, hi, hpending⟩]
    · exact (exec_frame h).z hflag (by tauto)

/-! ### Fetch (R106) -/

/-- Fetch's end with `l` in `L[F]`: unless Decode is stalled, pc advances by W and `L[DRF]` gets `l` too. -/
def State.fetched (s : State) (l : Latch) : State :=
  if s.latches.drf.stalled then { s with stage := .fetch, latches := { s.latches with f := l } }
  else { s with stage := .fetch, pc := wrap s.cfg.xlen (s.pc + s.cfg.width), latches := { s.latches with f := l, drf := l } }

theorem handToDecode_setLatch_fetch (s : State) (l : Latch) :
    handToDecode ({ s with stage := .fetch }.setLatch .fetch l) = s.fetched l := rfl

/-- The meaning of every instruction has the shape of `perform`. -/
theorem exec_eq_perform (i : Instr) :
    ∃ d e1 e2 m1 m2 w, ∃ c : State → Bool, ∀ s, exec i s = perform s d e1 e2 m1 m2 w (c s) := by
  cases i <;> exact ⟨_, _, _, _, _, _, _, fun _ => rfl⟩

/-- In Fetch no opcode has an action, an unknown one neither. -/
theorem runOwn_of_fetch {s : State} (hstage : s.stage = .fetch) : runOwn s = .next (handToDecode s) := by
  unfold runOwn
  split
  · rename_i i _
    obtain ⟨d, e1, e2, m1, m2, w, c, hexec⟩ := exec_eq_perform i
    rw [hexec, perform_fetch hstage]
  · exact perform_fetch hstage

theorem fetchHeld_stage (s : State) (S : Stage) : fetchHeld { s with stage := S } = fetchHeld s := rfl

theorem codeAt?_stage (s : State) (S : Stage) : codeAt? { s with stage := S } = codeAt? s := rfl

theorem codeAt?_of_inside {s : State} (h0 : 0 ≤ s.pc - s.cfg.codeBase) :
    codeAt? s = s.cfg.code[(s.pc - s.cfg.codeBase).toNat / s.cfg.width]? := if_pos h0

theorem codeAt?_of_not_inside {s : State} (hout : ¬ (0 ≤ s.pc - s.cfg.codeBase ∧
    (s.pc - s.cfg.codeBase).toNat / s.cfg.width < s.cfg.code.length)) : codeAt? s = none := by
  by_cases h0 : 0 ≤ s.pc - s.cfg.codeBase
  · rw [codeAt?_of_inside h0]
    exact List.getElem?_eq_none (Nat.le_of_not_lt fun hlt => hout ⟨h0, hlt⟩)
  · exact if_neg h0

theorem runStage_fetch_of_held {s : State} (hheld : fetchHeld s = true) :
    runStage .fetch s = .next (if s.latches.drf.stalled then { s with stage := .fetch }
      else { s with stage := .fetch, latches := { s.latches with drf := bubble false } }) :=
  if_pos hheld

theorem runStage_fetch_of_codeAt? {s : State} {r : Record} (hheld : fetchHeld s = false) (hcode : codeAt? s = some r) :
    runStage .fetch s = .next (s.fetched (fetchedLatch s.pc r)) := by
  simp only [runStage, fetchProcedure, fetchHeld_stage, codeAt?_stage, hheld, hcode, Bool.false_eq_true, if_false]
  rw [runOwn_of_fetch rfl, handToDecode_setLatch_fetch]

theorem runStage_fetch_of_bubble {s : State} (hheld : fetchHeld s = false) (hcode : codeAt? s = none)
    (hoob : s.cfg.fetchOob = .bubble) : runStage .fetch s = .next (s.fetched { bubble false with pc := s.pc }) := by
  simp only [runStage, fetchProcedure, fetchHeld_stage, codeAt?_stage, hheld, hcode, hoob, Bool.false_eq_true, if_false]
  rw [handToDecode_setLatch_fetch]

theorem runStage_fetch_of_fault {s : State} (hheld : fetchHeld s = false) (hcode : codeAt? s = none)
    (hoob : s.cfg.fetchOob = .fault) :
    runStage .fetch s = .next ({ s with stage := .fetch }.raised .addressOutOfRange s.pc (.code s.pc)) := by
  simp only [runStage, fetchProcedure, fetchHeld_stage, codeAt?_stage, hheld, hcode, hoob, Bool.false_eq_true, if_false]
  rw [raise_eq, State.raised]

/-- Settles O33: the held case, then the pc inside the program, then outside it. -/
theorem fetchFollowsItsRule : Obligations.FetchFollowsItsRule := by
  intro s held k load inside
  refine ⟨fun hheld hstalled => ?_, fun hheld hstalled => ?_, fun hheld hinside => ?_, fun hheld hout hoob => ?_,
    fun hheld hout hoob => ?_⟩
  · rw [runStage_fetch_of_held hheld, if_pos hstalled]
  · rw [runStage_fetch_of_held hheld, if_neg (by simp [hstalled])]
  · obtain ⟨h0, hlt⟩ := hinside
    have hrecord := List.getElem?_eq_getElem hlt
    exact ⟨_, hrecord, runStage_fetch_of_codeAt? hheld ((codeAt?_of_inside h0).trans hrecord)⟩
  · exact runStage_fetch_of_bubble hheld (codeAt?_of_not_inside hout) hoob
  · exact runStage_fetch_of_fault hheld (codeAt?_of_not_inside hout) hoob

/-! ### The driver (R100, R101) -/

theorem thenRun_assoc (r : Result) (f g : State → Result) :
    thenRun (thenRun r f) g = thenRun r fun s => thenRun (f s) g := by
  cases r with
  | next s =>
    by_cases hrunning : s.status = .running
    · rw [thenRun_of_running f hrunning, thenRun_of_running _ hrunning]
    · rw [thenRun_of_stopped f hrunning, thenRun_of_stopped g hrunning, thenRun_of_stopped _ hrunning]
  | fault e => rfl
  | refused e => rfl

theorem step_of_running {s : State} (hrunning : s.status = .running) : step s = tick s := by
  rw [step, stepOf, hrunning]

/-- Settles O27: the two tests in their order, then the seven procedures as one sequence. -/
theorem theDriverRunsOneTick : Obligations.TheDriverRunsOneTick := by
  intro s hrunning
  rw [step_of_running hrunning, tick]
  refine ⟨fun hdone => if_pos hdone, fun hmore hbudget hspent => ?_, fun ⟨_, hmore, hbudget⟩ => ?_⟩
  · rw [if_neg hmore, if_pos ⟨hbudget, hspent⟩]
  · rw [if_neg hmore, if_neg hbudget, beforeFetch]
    simp only [thenRun_assoc]
    rfl

end Sys2Proof.Machine
end

section
namespace Sys2Proof.Machine

/-! ### The arithmetic instructions (R159 to R165) -/

section
variable {i : Instr} {d e1 e2 m1 m2 w : State → Result} {c : Bool}

/-! #### Each stage, from the action of the meaning -/

/-- A Decode action that never stalls when the fields are in range lets the instruction leave Decode (R107). -/
theorem leavesDecode_of_neverStalls (hi : ∀ s, exec i s = perform s d e1 e2 m1 m2 w c)
    (hd : ∀ s, i.fieldsInRange s.cfg = true → d s = .next (neverStalls s)) : leavesDecode i := by
  rintro s ⟨hstage, hrunning⟩ hfields
  rw [hi, perform_decode hstage, hd s hfields, thenRun_of_running _ (by simpa using hrunning)]
  rfl

theorem gatedOn_of_decodeRI {rd a : Nat} (hi : ∀ s, exec i s = perform s (decodeRI rd a) e1 e2 m1 m2 w c)
    (hfields : ∀ ji, i.registerFields ji = [(.rd, (rd : Int)), (.rs1, (a : Int))]) :
    gatedOn i [a] (fun s l => { l with rs1Value := s.readReg a }) := by
  refine gatedOn_of_gateAndRead (srcs := [(.rs1, a)]) hi fun s hrange => ?_
  obtain ⟨hrd, ha⟩ : rd < s.cfg.nreg ∧ a < s.cfg.nreg := by
    simpa [Instr.fieldsInRange, hfields] using hrange
  exact decodeRI_of_lt hrd ha

theorem gatedOn_of_decodeR3 {rd a b : Nat} (hi : ∀ s, exec i s = perform s (decodeR3 rd a b) e1 e2 m1 m2 w c)
    (hfields : ∀ ji, i.registerFields ji = [(.rd, (rd : Int)), (.rs1, (a : Int)), (.rs2, (b : Int))]) :
    gatedOn i [a, b] (fun s l => { l with rs1Value := s.readReg a, rs2Value := s.readReg b }) := by
  refine gatedOn_of_gateAndRead (srcs := [(.rs1, a), (.rs2, b)]) hi fun s hrange => ?_
  obtain ⟨hrd, ha, hb⟩ : rd < s.cfg.nreg ∧ a < s.cfg.nreg ∧ b < s.cfg.nreg := by
    simpa [Instr.fieldsInRange, hfields] using hrange
  exact decodeR3_of_lt hrd ha hb

theorem faultsOnFields_of_decodeRI {rd a : Int} (hi : ∀ s, exec i s = perform s (decodeRI rd a) e1 e2 m1 m2 w c)
    (hfields : ∀ ji, i.registerFields ji = [(.rd, rd), (.rs1, a)]) : faultsOnFields i :=
  faultsOnFields_of_raise hi fun _ _ s hfind => decodeRI_of_find? (hfields s.cfg.jumpBase ▸ hfind)

theorem faultsOnFields_of_decodeR3 {rd a b : Int} (hi : ∀ s, exec i s = perform s (decodeR3 rd a b) e1 e2 m1 m2 w c)
    (hfields : ∀ ji, i.registerFields ji = [(.rd, rd), (.rs1, a), (.rs2, b)]) : faultsOnFields i :=
  faultsOnFields_of_raise hi fun _ _ s hfind => decodeR3_of_find? (hfields s.cfg.jumpBase ▸ hfind)

/-- Execute1 of an instruction whose result is computed there: the reservation and the result in `buffer`. -/
theorem reservesIn1_of_executeResult {rd : Nat} {v : Nat → Latch → Int}
    (hi : ∀ s, exec i s = perform s d (executeResult rd fun s => v s.cfg.xlen s.own) e2 m1 m2 w c) :
    reservesIn1 i rd (fun s l => { l with buffer := v s.cfg.xlen l }) :=
  reservesIn1_of_reserve hi (fun _ => rfl) (fun _ _ => rfl) (fun _ _ => rfl)

theorem forwardsOnly_memory2 (hi : ∀ s, exec i s = perform s d e1 e2 m1 .next w c) : forwardsOnly i .memory2 := by
  intro s hruns hactive
  rw [hi, perform_memory2 hruns.1, thenRun_forward_own hruns (by decide) hactive]

/-- The three stages between Execute1 and Writeback, for an instruction that acts in none of them (R105). -/
theorem forwardsOnly_after_execute1 (hi : ∀ s, exec i s = perform s d e1 .next .next .next w c) :
    forwardsOnly i .execute2 ∧ forwardsOnly i .memory1 ∧ forwardsOnly i .memory2 :=
  ⟨forwardsOnly_execute2 hi, forwardsOnly_memory1 hi, forwardsOnly_memory2 hi⟩

/-- Writeback of a flag producer sets Z to whether the committed value is 0 (R130 to R132, R134). -/
theorem commitsIn_of_isFlagProducer {rd : Nat} (hdest : i.destField? = some (rd : Int)) (hflag : i.opcode.isFlagProducer = true) :
    commitsIn i rd (fun _ v => decide (v = 0)) := by
  intro s hruns hrd _
  rw [exec_writeback_eq_committed hruns hdest hrd, if_pos hflag]

end

/-! #### MOVC (R160) -/

theorem exec_movc (rd imm : Int) (s : State) :
    exec (.movc rd imm) s = perform s (decode := fun s => checkField .rd rd s fun _ => .next (neverStalls s))
      (execute1 := executeResult rd fun _ => imm) (writeback := commit rd) := rfl

theorem movc_faultsOnFields (rd imm : Int) : faultsOnFields (.movc rd imm) :=
  faultsOnFields_of_raise (exec_movc rd imm) fun _ _ _ hfind => checkField_of_find? hfind fun hnone => nomatch hnone

theorem movc_leavesDecode (rd : Nat) (imm : Int) : leavesDecode (.movc rd imm) := by
  refine leavesDecode_of_neverStalls (exec_movc rd imm) fun s hrange => ?_
  have hrd : rd < s.cfg.nreg := by simpa [Instr.fieldsInRange, Instr.registerFields] using hrange
  exact checkField_of_lt _ hrd _

/-- Settles O3: Decode by the two lemmas above, the other stages from the actions of MOVC's meaning. -/
theorem movcFollowsItsRule : Obligations.MovcFollowsItsRule := by
  refine ⟨fun rd imm => ⟨Laws.OpcodeOfEncoding.movc rd imm, movc_faultsOnFields rd imm⟩, fun rd imm => ?_⟩
  have hi := exec_movc rd imm
  obtain ⟨hexecute2, hmemory1, hmemory2⟩ := forwardsOnly_after_execute1 hi
  exact ⟨movc_leavesDecode rd imm, reservesIn1_of_executeResult (v := fun _ _ => imm) hi, hexecute2, hmemory1, hmemory2,
    commitsIn_of_commit hi⟩

/-! #### ADD, SUB and MUL (R161, R163, R165) -/

/-- What ADD, SUB and MUL have in common: flag producers of format R3 whose result is `f` of the two sources, wrapped. -/
structure ArithmeticR3 (mk : Int → Int → Int → Instr) (tag : BitVec 8) (f : Int → Int → Int) : Prop where
  hasTag (rd a b : Int) : hasTag (mk rd a b) tag
  registerFields (rd a b : Int) (ji : Field) : (mk rd a b).registerFields ji = [(.rd, rd), (.rs1, a), (.rs2, b)]
  destField (rd a b : Int) : (mk rd a b).destField? = some rd
  isFlagProducer (rd a b : Int) : (mk rd a b).opcode.isFlagProducer = true
  exec (rd a b : Int) (s : State) : exec (mk rd a b) s = perform s (decode := decodeR3 rd a b)
    (execute1 := executeResult rd fun s => wrap s.cfg.xlen (f s.own.rs1Value s.own.rs2Value)) (writeback := commitWithFlag rd)

theorem add_arithmeticR3 : ArithmeticR3 .add 0x02 (fun a b => a + b) :=
  ⟨Laws.OpcodeOfEncoding.add, fun _ _ _ _ => rfl, fun _ _ _ => rfl, fun _ _ _ => rfl, fun _ _ _ _ => rfl⟩

theorem sub_arithmeticR3 : ArithmeticR3 .sub 0x04 (fun a b => a - b) :=
  ⟨Laws.OpcodeOfEncoding.sub, fun _ _ _ _ => rfl, fun _ _ _ => rfl, fun _ _ _ => rfl, fun _ _ _ _ => rfl⟩

theorem mul_arithmeticR3 : ArithmeticR3 .mul 0x06 (fun a b => a * b) :=
  ⟨Laws.OpcodeOfEncoding.mul, fun _ _ _ _ => rfl, fun _ _ _ => rfl, fun _ _ _ => rfl, fun _ _ _ _ => rfl⟩

/-- Settles O4: every stage once for the three instructions, from what they have in common. -/
theorem registerArithmeticFollowsItsRules : Obligations.RegisterArithmeticFollowsItsRules := by
  intro p hp
  have hR3 : ArithmeticR3 p.1 p.2.1 p.2.2 := by
    simp only [List.mem_cons, List.not_mem_nil, or_false] at hp
    obtain rfl | rfl | rfl := hp
    · exact add_arithmeticR3
    · exact sub_arithmeticR3
    · exact mul_arithmeticR3
  refine ⟨fun rd a b => ⟨hR3.hasTag rd a b, faultsOnFields_of_decodeR3 (hR3.exec rd a b) (hR3.registerFields rd a b)⟩,
    fun rd a b => ?_⟩
  have hi := hR3.exec rd a b
  obtain ⟨hexecute2, hmemory1, hmemory2⟩ := forwardsOnly_after_execute1 hi
  exact ⟨gatedOn_of_decodeR3 hi (hR3.registerFields rd a b),
    reservesIn1_of_executeResult (v := fun n l => wrap n (p.2.2 l.rs1Value l.rs2Value)) hi, hexecute2, hmemory1, hmemory2,
    commitsIn_of_isFlagProducer (hR3.destField rd a b) (hR3.isFlagProducer rd a b)⟩

/-! #### ADDL and SUBL (R162, R164) -/

/-- What ADDL and SUBL have in common: flag producers of format RI whose result is `f` of the source and the literal, wrapped. -/
structure ArithmeticRI (mk : Int → Int → Int → Instr) (tag : BitVec 8) (f : Int → Int → Int) : Prop where
  hasTag (rd a imm : Int) : hasTag (mk rd a imm) tag
  registerFields (rd a imm : Int) (ji : Field) : (mk rd a imm).registerFields ji = [(.rd, rd), (.rs1, a)]
  destField (rd a imm : Int) : (mk rd a imm).destField? = some rd
  isFlagProducer (rd a imm : Int) : (mk rd a imm).opcode.isFlagProducer = true
  exec (rd a imm : Int) (s : State) : exec (mk rd a imm) s = perform s (decode := decodeRI rd a)
    (execute1 := executeResult rd fun s => wrap s.cfg.xlen (f s.own.rs1Value imm)) (writeback := commitWithFlag rd)

theorem addl_arithmeticRI : ArithmeticRI .addl 0x03 (fun a b => a + b) :=
  ⟨Laws.OpcodeOfEncoding.addl, fun _ _ _ _ => rfl, fun _ _ _ => rfl, fun _ _ _ => rfl, fun _ _ _ _ => rfl⟩

theorem subl_arithmeticRI : ArithmeticRI .subl 0x05 (fun a b => a - b) :=
  ⟨Laws.OpcodeOfEncoding.subl, fun _ _ _ _ => rfl, fun _ _ _ => rfl, fun _ _ _ => rfl, fun _ _ _ _ => rfl⟩

/-- Settles O5: every stage once for the two instructions, from what they have in common. -/
theorem literalArithmeticFollowsItsRules : Obligations.LiteralArithmeticFollowsItsRules := by
  intro p hp
  have hRI : ArithmeticRI p.1 p.2.1 p.2.2 := by
    simp only [List.mem_cons, List.not_mem_nil, or_false] at hp
    obtain rfl | rfl := hp
    · exact addl_arithmeticRI
    · exact subl_arithmeticRI
  refine ⟨fun rd a imm => ⟨hRI.hasTag rd a imm, faultsOnFields_of_decodeRI (hRI.exec rd a imm) (hRI.registerFields rd a imm)⟩,
    fun rd a imm => ?_⟩
  have hi := hRI.exec rd a imm
  obtain ⟨hexecute2, hmemory1, hmemory2⟩ := forwardsOnly_after_execute1 hi
  exact ⟨gatedOn_of_decodeRI hi (hRI.registerFields rd a imm),
    reservesIn1_of_executeResult (v := fun n l => wrap n (p.2.2 l.rs1Value imm)) hi, hexecute2, hmemory1, hmemory2,
    commitsIn_of_isFlagProducer (hRI.destField rd a imm) (hRI.isFlagProducer rd a imm)⟩

end Sys2Proof.Machine
end

section
namespace Sys2Proof.Machine

/-! ### The logical instructions (R179 to R182) -/

section
variable {i : Instr} {d e1 e2 m1 m2 w : State → Result} {c : Bool}

/-- Execute1 of an instruction that only reserves its destination there (R113). -/
theorem reservesIn1_of_reserveOnly {rd : Nat} (hi : ∀ s, exec i s = perform s d (reserve rd) e2 m1 m2 w c) :
    reservesIn1 i rd (fun _ e => e) := by
  intro s hruns hrd hactive
  have hreserved : (s.setValid rd false).runs .execute1 := hruns
  rw [hi, perform_execute1 hruns.1, reserve_of_lt hrd, thenRun_forward_own hreserved (by decide) hactive]
  rfl

/-- Execute2 of an instruction whose result is computed there, from the values the latch carries. -/
theorem exec_execute2_of_setBuffer {s : State} {v : State → Int}
    (hi : ∀ s, exec i s = perform s d e1 (fun s => .next (setBuffer (v s) s)) m1 m2 w c)
    (hruns : s.runs .execute2) (hactive : s.latches.ex2.active = true) :
    exec i s = .next (s.advanced .execute2 { s.latches.ex2 with buffer := v s }) := by
  rw [hi, perform_execute2 hruns.1, setBuffer, State.own_of_stage hruns.1]
  exact thenRun_forward_setOwn hruns (by decide) hactive

end

/-- What AND, OR and XOR have in common: format R3, and the result `f` of the two carried values, computed in Execute2. -/
structure LogicalR3 (mk : Int → Int → Int → Instr) (tag : BitVec 8) (f : (n : Nat) → BitVec n → BitVec n → BitVec n) :
    Prop where
  hasTag (rd a b : Int) : hasTag (mk rd a b) tag
  registerFields (rd a b : Int) (ji : Field) : (mk rd a b).registerFields ji = [(.rd, rd), (.rs1, a), (.rs2, b)]
  exec (rd a b : Int) (s : State) : exec (mk rd a b) s = perform s (decode := decodeR3 rd a b) (execute1 := reserve rd)
    (execute2 := fun s => .next (setBuffer (bitwise s.cfg.xlen (f s.cfg.xlen) s.own.rs1Value s.own.rs2Value) s))
    (writeback := commit rd)

theorem and_logicalR3 : LogicalR3 .and 0x07 (fun _ a b => a &&& b) :=
  ⟨Laws.OpcodeOfEncoding.and, fun _ _ _ _ => rfl, fun _ _ _ _ => rfl⟩

theorem or_logicalR3 : LogicalR3 .or 0x08 (fun _ a b => a ||| b) :=
  ⟨Laws.OpcodeOfEncoding.or, fun _ _ _ _ => rfl, fun _ _ _ _ => rfl⟩

theorem xor_logicalR3 : LogicalR3 .xor 0x09 (fun _ a b => a ^^^ b) :=
  ⟨Laws.OpcodeOfEncoding.xor, fun _ _ _ _ => rfl, fun _ _ _ _ => rfl⟩

/-- Execute2 computes from the latch's values, not from the register file (R180 to R182). -/
theorem LogicalR3.exec_execute2 {mk : Int → Int → Int → Instr} {tag : BitVec 8}
    {f : (n : Nat) → BitVec n → BitVec n → BitVec n} (hR3 : LogicalR3 mk tag f) (rd a b : Int) {s : State}
    (hruns : s.runs .execute2) (hactive : s.latches.ex2.active = true) :
    Machine.exec (mk rd a b) s = .next (s.advanced .execute2 { s.latches.ex2 with
      buffer := (f s.cfg.xlen (.ofInt _ s.latches.ex2.rs1Value) (.ofInt _ s.latches.ex2.rs2Value)).toInt }) := by
  rw [exec_execute2_of_setBuffer (hR3.exec rd a b) hruns hactive, bitwise, State.own_of_stage hruns.1]
  rfl

/-- Settles O6: every stage once for the three instructions, from what they have in common. -/
theorem logicalFollowsItsRules : Obligations.LogicalFollowsItsRules := by
  intro p hp
  have hR3 : LogicalR3 p.1 p.2.1 p.2.2 := by
    simp only [List.mem_cons, List.not_mem_nil, or_false] at hp
    obtain rfl | rfl | rfl := hp
    · exact and_logicalR3
    · exact or_logicalR3
    · exact xor_logicalR3
  refine ⟨fun rd a b => ⟨hR3.hasTag rd a b, faultsOnFields_of_decodeR3 (hR3.exec rd a b) (hR3.registerFields rd a b)⟩,
    fun rd a b => ?_⟩
  have hi := hR3.exec rd a b
  exact ⟨gatedOn_of_decodeR3 hi (hR3.registerFields rd a b), reservesIn1_of_reserveOnly hi,
    fun _ => hR3.exec_execute2 rd a b, forwardsOnly_memory1 hi, forwardsOnly_memory2 hi,
    commitsIn_of_commit hi⟩

end Sys2Proof.Machine
end

section
namespace Sys2Proof.Machine

/-! ### The control instructions (R209 to R215) -/

section
variable {i : Instr} {d e1 e2 m1 m2 w : State → Result} {c : Bool}

/-! #### Each stage, from the action of the meaning -/

/-- The generic end of Decode, after an action that gave `L[DRF]` a value that is not stalled (R107). -/
theorem thenRun_issue_setLatch {s : State} {l : Latch} (hrunning : s.status = .running) (hl : l.stalled = false) :
    thenRun (.next (s.setLatch .decode l)) (fun s => .next (issue s)) = .next (s.advanced .decode l) := by
  rw [thenRun_of_running _ (by exact hrunning), issue, State.latch_setLatch_same, hl]
  rfl

theorem forwardsOnly_execute1 (hi : ∀ s, exec i s = perform s d .next e2 m1 m2 w c) : forwardsOnly i .execute1 := by
  intro s hruns hactive
  rw [hi, perform_execute1 hruns.1, thenRun_forward_own hruns (by decide) hactive]

/-- The branch-stall budget (R209): one unit of it is spent on a stall, or the branch passes. -/
theorem branchBudget_eq (s : State) :
    branchBudget s = if s.latches.ex1.opcode ∈ s.cfg.brStallSet ∧ s.bstall < s.cfg.bstallMax then
      { s.setLatch .decode { s.latch .decode with stalled := true } with bstall := s.bstall + 1 } else neverStalls s := by
  simp only [branchBudget, Bool.and_eq_true, List.contains_iff_mem, decide_eq_true_iff]
  rfl

/-- A Decode action that is the branch-stall budget is Decode of the statements. -/
theorem followsBudget_of_branchBudget (hi : ∀ s, exec i s = perform s (fun s => .next (branchBudget s)) e1 e2 m1 m2 w c) :
    followsBudget i := by
  rintro s ⟨hstage, hrunning⟩
  rw [hi, perform_decode hstage, branchBudget_eq]
  constructor
  · intro hop hleft
    rw [if_pos ⟨hop, hleft⟩, thenRun_of_running _ (by exact hrunning)]
    rfl
  · intro hpass
    rw [if_neg hpass]
    exact thenRun_issue_setLatch hrunning rfl

/-- What Execute2 stages: the aligned sum of the branch's own pc and the offset (decision D11). -/
theorem stageTarget_eq {s : State} (hstage : s.stage = .execute2) (imm : Int) :
    stageTarget imm s = { s with brTarget := s.target s.latches.ex2.pc imm, brPending := true } := by
  rw [stageTarget, (target_eq s _ imm).1, State.own_of_stage hstage]
  rfl

/-- A staged target is committed with the flush, and the branch moves on (R121, R122). -/
theorem exec_memory1_of_brPending {s : State} (hi : ∀ s, exec i s = perform s d e1 e2 resolveBranch m2 w c)
    (hruns : s.runs .memory1) (hactive : s.latches.mem1.active = true) (hpending : s.brPending = true) :
    exec i s = .next ((branchCommit s).advanced .memory1 s.latches.mem1) := by
  have hcommitted : (branchCommit s).runs .memory1 := hruns
  rw [hi, perform_memory1 hruns.1, resolveBranch, if_pos hpending, thenRun_forward_own hcommitted (by decide) hactive]
  rfl

/-- With no target staged the branch only moves on. -/
theorem exec_memory1_of_not_brPending {s : State} (hi : ∀ s, exec i s = perform s d e1 e2 resolveBranch m2 w c)
    (hruns : s.runs .memory1) (hactive : s.latches.mem1.active = true) (hpending : s.brPending = false) :
    exec i s = .next (s.advanced .memory1 s.latches.mem1) := by
  rw [hi, perform_memory1 hruns.1, resolveBranch, if_neg (by simp [hpending]), thenRun_forward_own hruns (by decide) hactive]
  rfl

theorem exec_writeback_of_retireBranch {s : State} (hi : ∀ s, exec i s = perform s d e1 e2 m1 m2 retireBranch)
    (hruns : s.runs .writeback) : exec i s = .next { s with z := false, bstall := 0, completed := s.completed + 1 } := by
  rw [hi, perform_writeback hruns.1, retireBranch, thenRun_of_running _ (by exact hruns.2)]
  rfl

end

/-! #### BZ and BNZ (R209 to R211) -/

/-- What BZ and BNZ have in common: the budget in Decode, a target staged when Z is `taken`, and the commit. -/
structure BranchOn (mk : Int → Instr) (tag : BitVec 8) (taken : Bool) : Prop where
  hasTag (imm : Int) : hasTag (mk imm) tag
  exec (imm : Int) (s : State) : exec (mk imm) s = perform s (decode := fun s => .next (branchBudget s))
    (execute2 := fun s => .next (if s.z = taken then stageTarget imm s else s)) (memory1 := resolveBranch)
    (writeback := retireBranch)

theorem bz_branchOn : BranchOn .bz 0x0E true :=
  ⟨Laws.OpcodeOfEncoding.bz, fun _ _ => rfl⟩

theorem bnz_branchOn : BranchOn .bnz 0x0F false := by
  refine ⟨Laws.OpcodeOfEncoding.bnz, fun imm s => ?_⟩
  simp only [← Bool.not_eq_true, ite_not]
  rfl

/-- A branch whose test holds stages its target and moves on (R210, R211, decision D12). -/
theorem BranchOn.exec_execute2_of_taken {mk : Int → Instr} {tag : BitVec 8} {taken : Bool} (hbranch : BranchOn mk tag taken)
    (imm : Int) {s : State} (hruns : s.runs .execute2) (hactive : s.latches.ex2.active = true) (hz : s.z = taken) :
    Machine.exec (mk imm) s = .next ({ s with
      brTarget := s.target s.latches.ex2.pc imm, brPending := true }.advanced .execute2 s.latches.ex2) := by
  have hstaged : (stageTarget imm s).runs .execute2 := hruns
  rw [hbranch.exec, perform_execute2 hruns.1, if_pos hz, thenRun_forward_own hstaged (by decide) hactive,
    stageTarget_eq hruns.1]
  rfl

/-- A branch whose test fails only moves on. -/
theorem BranchOn.exec_execute2_of_not_taken {mk : Int → Instr} {tag : BitVec 8} {taken : Bool}
    (hbranch : BranchOn mk tag taken) (imm : Int) {s : State} (hruns : s.runs .execute2)
    (hactive : s.latches.ex2.active = true) (hz : s.z ≠ taken) :
    Machine.exec (mk imm) s = .next (s.advanced .execute2 s.latches.ex2) := by
  rw [hbranch.exec, perform_execute2 hruns.1, if_neg hz, thenRun_forward_own hruns (by decide) hactive]
  rfl

/-- Settles O9: every stage once for both branches, from what they have in common. -/
theorem branchesFollowTheirRules : Obligations.BranchesFollowTheirRules := by
  intro p hp imm
  have hbranch : BranchOn p.1 p.2.1 p.2.2 := by
    simp only [List.mem_cons, List.not_mem_nil, or_false] at hp
    obtain rfl | rfl := hp
    · exact bz_branchOn
    · exact bnz_branchOn
  have hi := hbranch.exec imm
  exact ⟨hbranch.hasTag imm, followsBudget_of_branchBudget hi, forwardsOnly_execute1 hi,
    fun _ hruns hactive =>
      ⟨hbranch.exec_execute2_of_taken imm hruns hactive, hbranch.exec_execute2_of_not_taken imm hruns hactive⟩,
    fun _ hruns hactive =>
      ⟨exec_memory1_of_brPending hi hruns hactive, exec_memory1_of_not_brPending hi hruns hactive⟩,
    forwardsOnly_memory2 hi, fun _ => exec_writeback_of_retireBranch hi⟩

/-- Settles O10: both branches have the budget for their Decode action. -/
theorem branchBudgetStallsTheBranch : Obligations.BranchBudgetStallsTheBranch := by
  intro mk hmk imm
  obtain rfl | rfl : mk = .bz ∨ mk = .bnz := by simpa using hmk
  · exact followsBudget_of_branchBudget (bz_branchOn.exec imm)
  · exact followsBudget_of_branchBudget (bnz_branchOn.exec imm)

/-! #### JUMP (R212) -/

theorem exec_jump (base imm : Int) (s : State) :
    exec (.jump base imm) s = perform s
      (decode := fun s => checkField s.cfg.jumpBase base s fun a => .next (gateAndRead [(.rs1, a)] s))
      (execute1 := fun s => .next (jumpRedirect imm s))
      (execute2 := fun s => .next (s.setOwn { s.own with stalled := true })) := rfl

theorem jump_faultsOnFields (base imm : Int) : faultsOnFields (.jump base imm) :=
  faultsOnFields_of_raise (exec_jump base imm) fun _ _ _ hfind => checkField_of_find? hfind fun hnone => nomatch hnone

theorem jump_gatedOn (base : Nat) (imm : Int) :
    gatedOn (.jump base imm) [base] (fun s l => { l with rs1Value := s.readReg base }) := by
  refine gatedOn_of_gateAndRead (srcs := [(.rs1, base)]) (exec_jump base imm) fun s hrange => ?_
  have hbase : base < s.cfg.nreg := by simpa [Instr.fieldsInRange, Instr.registerFields] using hrange
  exact checkField_of_lt _ hbase _

/-- Execute1 of a JUMP to `t`, but for its own latch: pc, the discarded instruction in Decode, the queued redirect (R212). -/
def State.redirected (s : State) (t : Int) : State :=
  { s with
    pc := t, jmpAddr := wrap s.cfg.xlen (t + s.cfg.width), jmpPending := true
    latches := { s.latches with drf := { s.latches.drf with busy := true } } }

theorem jumpRedirect_eq {s : State} {imm t : Int} (ht : jumpTarget s.cfg s.own.rs1Value imm = t) :
    jumpRedirect imm s = (s.redirected t).setOwn
      { (s.redirected t).own with nextAddr := wrap s.cfg.xlen (t + s.cfg.width) } := by
  rw [← ht]
  rfl

theorem jump_exec_execute1 (base imm : Int) {s : State} (hruns : s.runs .execute1) (hactive : s.latches.ex1.active = true) :
    exec (.jump base imm) s = .next ((s.redirected (s.target s.latches.ex1.rs1Value imm)).advanced .execute1
      { s.latches.ex1 with nextAddr := wrap s.cfg.xlen (s.target s.latches.ex1.rs1Value imm + s.cfg.width) }) := by
  have hredirected : (s.redirected (s.target s.latches.ex1.rs1Value imm)).runs .execute1 := hruns
  have htarget : jumpTarget s.cfg s.own.rs1Value imm = s.target s.latches.ex1.rs1Value imm := by
    rw [(target_eq s _ imm).2, State.own_of_stage hruns.1]
    rfl
  rw [exec_jump, perform_execute1 hruns.1, jumpRedirect_eq htarget, State.own_of_stage hredirected.1]
  exact thenRun_forward_setOwn hredirected (by decide) hactive

/-- A stalled latch is handed on as `bubble(1)`, which is how a JUMP vanishes (R105, R212). -/
theorem jump_exec_execute2 (base imm : Int) {s : State} (hruns : s.runs .execute2) :
    exec (.jump base imm) s = .next { s with
      latches := { s.latches with ex2 := { s.latches.ex2 with stalled := true }, mem1 := bubble true } } := by
  have hinactive : ({ s.latches.ex2 with stalled := true } : Latch).active = false := by simp [Latch.active]
  have hforwarded := Latch.forwarded_of_inactive hinactive
  obtain ⟨hstage, hrunning⟩ := hruns
  rw [exec_jump, perform_execute2 hstage, thenRun_of_running _ (by exact hrunning), State.own_of_stage hstage]
  simp only [forward, State.setOwn, hstage, State.setLatch, Latches.set, State.latch, Latches.get, hforwarded]

/-- Settles O11: one lemma per stage that acts. -/
theorem jumpFollowsItsRule : Obligations.JumpFollowsItsRule :=
  ⟨fun base imm => ⟨Laws.OpcodeOfEncoding.jump base imm, jump_faultsOnFields base imm⟩,
    fun base imm => ⟨jump_gatedOn base imm, fun _ => jump_exec_execute1 base imm, fun _ => jump_exec_execute2 base imm⟩⟩

/-! #### NOP (R213) -/

theorem exec_nop (s : State) :
    exec .nop s = perform s (decode := fun s => .next (neverStalls s)) (counts := s.cfg.nopCounts) := rfl

theorem nop_leavesDecode : leavesDecode .nop := by
  rintro s ⟨hstage, hrunning⟩ -
  rw [exec_nop, perform_decode hstage]
  exact thenRun_issue_setLatch hrunning rfl

/-- NOP has no action between Decode and Writeback (R105). -/
theorem nop_forwardsOnly {S : Stage} (hS : S ∈ [Stage.execute1, .execute2, .memory1, .memory2]) : forwardsOnly .nop S := by
  intro s hruns hactive
  have hend : exec .nop s = thenRun (.next s) fun s => .next (forward s) := by
    rw [exec_nop]
    cases S with
    | execute1 => exact perform_execute1 hruns.1
    | execute2 => exact perform_execute2 hruns.1
    | memory1 => exact perform_memory1 hruns.1
    | memory2 => exact perform_memory2 hruns.1
    | fetch | decode | writeback => simp at hS
  rw [hend, thenRun_forward_own hruns hS hactive]

theorem countRetirement_eq (counts : Bool) (s : State) :
    countRetirement counts s = { s with completed := s.completed + (if counts then 1 else 0) } := by
  cases counts <;> rfl

theorem nop_exec_writeback {s : State} (hruns : s.runs .writeback) :
    exec .nop s = .next { s with completed := s.completed + (if s.cfg.nopCounts then 1 else 0) } := by
  rw [exec_nop, perform_writeback hruns.1, thenRun_of_running _ hruns.2, countRetirement_eq]

/-- Settles O12: Decode, the four stages with no action, and the count. -/
theorem nopFollowsItsRule : Obligations.NopFollowsItsRule :=
  ⟨Laws.OpcodeOfEncoding.nop, nop_leavesDecode, nop_forwardsOnly (by decide), nop_forwardsOnly (by decide),
    nop_forwardsOnly (by decide), nop_forwardsOnly (by decide), fun _ => nop_exec_writeback⟩

/-! #### HALT (R214) -/

theorem exec_halt (s : State) :
    exec .halt s = perform s (decode := fun s => .next (freezeFetch s))
      (writeback := fun s => .next { s with programSize := s.completed + 1 }) := rfl

theorem halt_exec_decode {s : State} (hruns : s.runs .decode) :
    exec .halt s = .next ({ s with
      haltFlag := true
      latches := { s.latches with f := { s.latches.f with busy := true } } }.advanced .decode
        { s.latches.drf with stalled := false }) := by
  rw [exec_halt, perform_decode hruns.1]
  exact thenRun_issue_setLatch hruns.2 rfl

/-- HALT truncates the program before it is counted itself. -/
theorem halt_exec_writeback {s : State} (hruns : s.runs .writeback) :
    exec .halt s = .next { s with programSize := s.completed + 1, completed := s.completed + 1 } := by
  rw [exec_halt, perform_writeback hruns.1, thenRun_of_running _ (by exact hruns.2)]
  rfl

/-- Settles O13: Decode and Writeback by the lemmas above, and no action between them. -/
theorem haltFollowsItsRule : Obligations.HaltFollowsItsRule := by
  obtain ⟨hexecute2, hmemory1, hmemory2⟩ := forwardsOnly_after_execute1 exec_halt
  exact ⟨Laws.OpcodeOfEncoding.halt, fun _ => halt_exec_decode, forwardsOnly_execute1 exec_halt, hexecute2, hmemory1, hmemory2,
    fun _ => halt_exec_writeback⟩

end Sys2Proof.Machine
end

section
namespace Sys2Proof.Machine

/-! ### The faults an instruction raises (R230 to R233) -/

/-- A next state of `r` has the status `u`, or that of a raised AddressOutOfRange: nothing else has been raised. -/
def AddressFaultOnly (u : Status) (r : Result) : Prop :=
  ∀ t, r = .next t → t.status = u ∨ ∃ T pc info, t.status = .faulted .addressOutOfRange T pc info

section
variable {i : Instr} {s t : State} {u : Status} {r : Result}

theorem AddressFaultOnly.next (ht : t.status = u) : AddressFaultOnly u (.next t) := by
  intro t' h
  cases h
  exact .inl ht

theorem AddressFaultOnly.raise (pc : Int) (info : FaultInfo) (s : State) :
    AddressFaultOnly u (raise .addressOutOfRange pc info s) := by
  intro t h
  cases h
  exact .inr ⟨_, _, _, rfl⟩

/-- A first part that answers a running state has raised nothing, so the second starts from the status `u`. -/
theorem AddressFaultOnly.thenRun {f : State → Result} (hr : AddressFaultOnly u r)
    (hf : ∀ s, s.status = u → AddressFaultOnly u (f s)) : AddressFaultOnly u (thenRun r f) := by
  intro t h
  obtain ⟨s, hs, ⟨hrunning, ht⟩ | ⟨-, rfl⟩⟩ := thenRun_next h
  · obtain hkept | ⟨T, pc, info, hfaulted⟩ := hr s hs
    · exact hf s hkept t ht
    · simp [hfaulted] at hrunning
  · exact hr s hs

theorem AddressFaultOnly.checkField {f : Field} {v : Int} {k : Nat → Result} (hk : ∀ q, AddressFaultOnly u (k q)) :
    AddressFaultOnly u (checkField f v s k) := by
  obtain ⟨q, -, -, hq⟩ | ⟨-, hraise⟩ := checkField_cases f v s k
  · rw [hq]
    exact hk q
  · rw [hraise]
    exact .raise _ _ s

theorem decodeRI_addressFaultOnly (rd rs1 : Int) (s : State) : AddressFaultOnly s.status (decodeRI rd rs1 s) :=
  .checkField fun _ => .checkField fun _ => .next (gateAndRead_status s _)

theorem decodeR3_addressFaultOnly (rd rs1 rs2 : Int) (s : State) : AddressFaultOnly s.status (decodeR3 rd rs1 rs2 s) :=
  .checkField fun _ => .checkField fun _ => .checkField fun _ => .next (gateAndRead_status s _)

theorem loadCell_addressFaultOnly (s : State) : AddressFaultOnly s.status (loadCell s) := by
  unfold loadCell
  obtain ⟨c, -, hread⟩ | ⟨-, hraise⟩ := memRead_cases s.own.memAddress s fun v => .next (setBuffer v s)
  · rw [hread]
    exact .next (setBuffer_status s _)
  · rw [hraise]
    exact .raise _ _ s

theorem storeCell_addressFaultOnly (s : State) : AddressFaultOnly s.status (storeCell s) := by
  unfold storeCell
  obtain ⟨c, -, hwrite⟩ | ⟨-, hraise⟩ := memWrite_cases s.own.memAddress s.own.rs1Value s
  · rw [hwrite]
    exact .next rfl
  · rw [hraise]
    exact .raise _ _ s

theorem resolveBranch_addressFaultOnly (s : State) : AddressFaultOnly s.status (resolveBranch s) := by
  refine .next ?_
  split <;> rfl

/-- By the frame of the status only Decode, Memory1 and Memory2 can raise, so their three actions decide. -/
theorem addressFaultOnly_of_perform {d e1 e2 m1 m2 w : State → Result} {c : State → Bool}
    (hi : ∀ s, exec i s = perform s d e1 e2 m1 m2 w (c s)) (hd : AddressFaultOnly s.status (d s))
    (hm1 : AddressFaultOnly s.status (m1 s) := by exact .next rfl)
    (hm2 : AddressFaultOnly s.status (m2 s) := by exact .next rfl) : AddressFaultOnly s.status (exec i s) := by
  cases hstage : s.stage with
  | fetch | execute1 | execute2 | writeback =>
    intro t h
    exact .inl ((exec_frame h).status (by simp [hstage]) (by simp [hstage]) (by simp [hstage]))
  | decode =>
    rw [hi, perform_decode hstage]
    exact hd.thenRun fun v hv => .next ((issue_status v).trans hv)
  | memory1 =>
    rw [hi, perform_memory1 hstage]
    exact hm1.thenRun fun v hv => .next ((forward_status v).trans hv)
  | memory2 =>
    rw [hi, perform_memory2 hstage]
    exact hm2.thenRun fun v hv => .next ((forward_status v).trans hv)

/-- An instruction with a meaning raises nothing but AddressOutOfRange, in whatever stage. -/
theorem exec_addressFaultOnly (i : Instr) (s : State) : AddressFaultOnly s.status (exec i s) := by
  cases i with
  | movc rd imm =>
    refine addressFaultOnly_of_perform (fun _ => rfl) ?_
    exact .checkField fun _ => .next (neverStalls_status s)
  | add rd a b | sub rd a b | mul rd a b | and rd a b | or rd a b | xor rd a b =>
    exact addressFaultOnly_of_perform (fun _ => rfl) (decodeR3_addressFaultOnly rd a b s)
  | addl rd a imm | subl rd a imm =>
    exact addressFaultOnly_of_perform (fun _ => rfl) (decodeRI_addressFaultOnly rd a s)
  | load rd a imm =>
    exact addressFaultOnly_of_perform (fun _ => rfl) (decodeRI_addressFaultOnly rd a s) (hm2 := loadCell_addressFaultOnly s)
  | ldr rd a b =>
    exact addressFaultOnly_of_perform (fun _ => rfl) (decodeR3_addressFaultOnly rd a b s) (hm2 := loadCell_addressFaultOnly s)
  | store a b imm =>
    refine addressFaultOnly_of_perform (fun _ => rfl) ?_ (hm1 := storeCell_addressFaultOnly s)
    exact .checkField fun _ => .checkField fun _ => .next (gateAndRead_status s _)
  | str a b c =>
    refine addressFaultOnly_of_perform (fun _ => rfl) ?_ (hm1 := storeCell_addressFaultOnly s)
    exact .checkField fun _ => .checkField fun _ => .checkField fun _ => .next (gateAndRead_status s _)
  | bz imm | bnz imm =>
    refine addressFaultOnly_of_perform (fun _ => rfl) ?_ (hm1 := resolveBranch_addressFaultOnly s)
    exact .next (branchBudget_status s)
  | jump base imm =>
    refine addressFaultOnly_of_perform (fun _ => rfl) ?_
    exact .checkField fun _ => .next (gateAndRead_status s _)
  | halt =>
    refine addressFaultOnly_of_perform (fun _ => rfl) ?_
    exact .next (freezeFetch_status s)
  | nop =>
    refine addressFaultOnly_of_perform (fun _ => rfl) ?_
    exact .next (neverStalls_status s)

/-! ### The faults a stage procedure raises -/

/-- A latch whose opcode has no meaning only takes the stage's generic end, which raises nothing (log entry 10). -/
theorem runOwn_status_of_no_instr (hnone : s.own.instr? s.cfg.jumpBase = none) (h : runOwn s = .next t) :
    t.status = s.status := by
  rw [runOwn, hnone] at h
  have hended := perform_next h
  split at hended
  · rw [hended, handToDecode_status]
  all_goals
    obtain ⟨v, hv, rfl⟩ := hended
    cases hv
    exact endedWith_keeps State.status (by simp)

theorem runOwn_addressFaultOnly (s : State) : AddressFaultOnly s.status (runOwn s) := by
  cases hinstr : s.own.instr? s.cfg.jumpBase with
  | none => exact fun t h => .inl (runOwn_status_of_no_instr hinstr h)
  | some i =>
    rw [runOwn, hinstr]
    exact exec_addressFaultOnly i s

theorem runIfActive_addressFaultOnly (hu : s.status = u) : AddressFaultOnly u (runIfActive s) := by
  subst hu
  unfold runIfActive
  split
  · exact runOwn_addressFaultOnly s
  · exact .next (forward_status s)

theorem State.fetched_status (s : State) (l : Latch) : (s.fetched l).status = s.status := by
  unfold State.fetched
  split <;> rfl

theorem runStage_fetch_addressFaultOnly (s : State) : AddressFaultOnly s.status (runStage .fetch s) := by
  cases hheld : fetchHeld s with
  | true =>
    rw [runStage_fetch_of_held hheld]
    exact .next (by split <;> rfl)
  | false =>
    cases hcode : codeAt? s with
    | some r =>
      rw [runStage_fetch_of_codeAt? hheld hcode]
      exact .next (s.fetched_status _)
    | none =>
      cases hoob : s.cfg.fetchOob with
      | bubble =>
        rw [runStage_fetch_of_bubble hheld hcode hoob]
        exact .next (s.fetched_status _)
      | fault =>
        rw [runStage_fetch_of_fault hheld hcode hoob]
        exact .raise _ _ { s with stage := .fetch }

/-- An unknown opcode in a latch that is not busy raises UnrecognizedOpcode, and nothing else happens (R232). -/
theorem runStage_decode_of_unknown {text : String} (hbusy : s.latches.drf.busy = false)
    (hop : s.latches.drf.opcode = .unknown text) :
    runStage .decode s =
      .next ({ s with stage := .decode }.raised .unrecognizedOpcode s.latches.drf.pc (.opcode text)) := by
  simp [runStage, decodeProcedure, State.latch, Latches.get, hbusy, hop, raise_eq, State.raised]

theorem runStage_decode_of_op {o : Opcode} (hbusy : s.latches.drf.busy = false) (hop : s.latches.drf.opcode = .op o) :
    runStage .decode s = runOwn { s with stage := .decode } := by
  simp [runStage, decodeProcedure, State.latch, Latches.get, hbusy, hop]

/-- A busy latch and a bubble are not decoded (R107, decision D38). -/
theorem runStage_decode_of_not_decoded (hskip : s.latches.drf.busy = true ∨ s.latches.drf.opcode = .bubble) :
    runStage .decode s = .next { s with
      stage := .decode
      latches := { s.latches with drf := { s.latches.drf with stalled := false }, ex1 := bubble false } } :=
  if_pos (by simpa [State.latch, Latches.get] using hskip)

/-- Decode of anything else raises nothing but AddressOutOfRange. -/
theorem runStage_decode_addressFaultOnly
    (hknown : ¬ (s.latches.drf.busy = false ∧ ∃ text, s.latches.drf.opcode = .unknown text)) :
    AddressFaultOnly s.status (runStage .decode s) := by
  cases hbusy : s.latches.drf.busy with
  | true =>
    rw [runStage_decode_of_not_decoded (.inl hbusy)]
    exact .next rfl
  | false =>
    cases hop : s.latches.drf.opcode with
    | bubble =>
      rw [runStage_decode_of_not_decoded (.inr hop)]
      exact .next rfl
    | unknown text => exact absurd ⟨hbusy, text, hop⟩ hknown
    | op o =>
      rw [runStage_decode_of_op hbusy hop]
      exact runOwn_addressFaultOnly { s with stage := .decode }

/-- No stage procedure but Decode raises UnrecognizedOpcode. -/
theorem runStage_addressFaultOnly {S : Stage} (hS : S ≠ .decode) (s : State) : AddressFaultOnly s.status (runStage S s) := by
  cases S with
  | fetch => exact runStage_fetch_addressFaultOnly s
  | decode => exact absurd rfl hS
  | execute2 => exact runIfActive_addressFaultOnly (applyRedirect_status _)
  | execute1 | memory1 | memory2 | writeback => exact runIfActive_addressFaultOnly rfl

theorem AddressFaultOnly.not_unrecognizedOpcode {T : Stage} {pc : Int} {info : FaultInfo}
    (hr : AddressFaultOnly s.status r) (hrunning : s.status = .running) (h : r = .next t) :
    t.status ≠ .faulted .unrecognizedOpcode T pc info := by
  obtain hkept | ⟨_, _, _, hfaulted⟩ := hr t h
  · simp [hkept, hrunning]
  · simp [hfaulted]

end

/-- Settles O32: Decode of an unknown opcode by its own lemma; every other procedure, and Decode of every other latch, raises
AddressOutOfRange at most. -/
theorem unknownOpcodesFaultInDecodeOnly : Obligations.UnknownOpcodesFaultInDecodeOnly := by
  refine ⟨fun s text => runStage_decode_of_unknown, fun S T s t pc info hrunning h hfault => ?_⟩
  obtain rfl : S = .decode := by
    by_contra hS
    exact (runStage_addressFaultOnly hS s).not_unrecognizedOpcode hrunning h hfault
  obtain ⟨hbusy, text, hop⟩ : s.latches.drf.busy = false ∧ ∃ text, s.latches.drf.opcode = .unknown text := by
    by_contra hknown
    exact (runStage_decode_addressFaultOnly hknown).not_unrecognizedOpcode hrunning h hfault
  cases (runStage_decode_of_unknown hbusy hop).symm.trans h
  cases hfault
  exact ⟨rfl, rfl, rfl, hbusy, text, hop, rfl⟩

end Sys2Proof.Machine
end

section
namespace Sys2Proof.Machine

/-! ### The parameter table (R6) -/

/-- Settles O2: every row is a field of the defaults, but the constraints, which compute, and the membership in BR_STALL_SET. -/
theorem defaultsAreThoseOfTheParameterTable : Obligations.DefaultsAreThoseOfTheParameterTable := by
  refine ⟨rfl, rfl, rfl, rfl, rfl, rfl, rfl, rfl, rfl, rfl, rfl, ?_, fun o => ?_⟩
  · decide
  · simp [Config.default]

/-! ### Decoding and encoding (R80 to R86) -/

/-- The opcode map of R85 is one-to-one: a tag that selects an opcode is that opcode's tag. -/
theorem opcodeOfTag_eq_some {tag : BitVec 8} {o : Opcode} : opcodeOfTag tag = some o ↔ tag = tagOf o := by
  constructor
  · intro h
    unfold opcodeOfTag at h
    split at h
    all_goals cases h
    all_goals exact BitVec.eq_of_toNat_eq ‹_›
  · rintro rfl
    cases o <;> rfl

theorem decodeFields_opcode (ji : Field) (o : Opcode) (rd rs1 rs2 rs3 imm : Int) :
    (decodeFields ji o rd rs1 rs2 rs3 imm).opcode = o := by
  cases o with
  | jump => cases ji <;> rfl
  | _ => rfl

/-- The instruction's fields of format JI are the record's source field, whichever it is (R215). -/
theorem decodeFields_jump (ji : Field) (r : Record) :
    decodeFields ji .jump r.rd r.rs1 r.rs2 r.rs3 r.imm = .jump (r.field ji) r.imm := by
  cases ji <;> rfl

/-- An opcode makes `i` of a record exactly when it is `i`'s and the fields `i`'s format uses are `i`'s (R83). -/
theorem decodeFields_eq_iff {ji : Field} {o : Opcode} {r : Record} {i : Instr} :
    decodeFields ji o r.rd r.rs1 r.rs2 r.rs3 r.imm = i ↔
      o = i.opcode ∧ (∀ p ∈ i.registerFields ji, r.field p.1 = p.2) ∧ (∀ v, i.literal? = some v → r.imm = v) := by
  constructor
  · rintro rfl
    refine ⟨(decodeFields_opcode ..).symm, ?_⟩
    cases o with
    | jump =>
      rw [decodeFields_jump]
      simp [Instr.registerFields, Instr.literal?]
    | _ => simp [decodeFields, Instr.registerFields, Instr.literal?, Record.field]
  · rintro ⟨rfl, hfields, himm⟩
    cases i with
    | jump base imm =>
      rw [Instr.opcode, decodeFields_jump, hfields (ji, base) (by simp [Instr.registerFields]), himm imm rfl]
    | _ => simp_all [decodeFields, Instr.opcode, Instr.registerFields, Instr.literal?, Record.field]

theorem decode_eq_instr_iff {ji : Field} {r : Record} {i : Instr} : decode ji r = .instr i ↔
    r.opcode = .known i.opcode ∧ (∀ p ∈ i.registerFields ji, r.field p.1 = p.2) ∧ (∀ v, i.literal? = some v → r.imm = v) := by
  unfold decode
  split
  · rename_i o ho
    rw [Decoded.instr.injEq, decodeFields_eq_iff, ho, RecordOp.known.injEq]
  · rename_i ho
    simp [ho]

/-- The encoder's record has the fields that decoding reads (R83, R85). -/
theorem decode_encode (ji : Field) (i : Instr) : decode ji (encode ji i) = .instr i := by
  cases i with
  | jump base imm => cases ji <;> rfl
  | _ => rfl

/-- Settles O56: the round trip, the opcode map, and what decoding reads of a record. -/
theorem decodeAndEncodeAgree : Obligations.DecodeAndEncodeAgree := by
  refine ⟨decode_encode, fun tag o => ?_, fun ji r i => decode_eq_instr_iff⟩
  rw [opcodeOfTag_eq_some]
  cases o <;> simp [tagOf]

/-- Settles O57: every record is closed, so the decoder computes. -/
theorem writtenRecordsDecode : Obligations.WrittenRecordsDecode := by
  unfold Obligations.WrittenRecordsDecode
  refine ⟨?_, ?_, ?_, ?_, ?_, ?_, ?_, ?_, ?_, ?_, ?_, ?_, ?_, ?_⟩ <;> rfl

/-! ### Decode, over all instructions (R107, R108, R233) -/

theorem checkField_of_inRange {v : Int} {s : State} (hv : inRange s.cfg.nreg v = true) (f : Field) (k : Nat → Result) :
    checkField f v s k = k v.toNat := by
  obtain ⟨r, rfl, hr⟩ := exists_reg_of_inRange hv
  exact checkField_of_lt f hr k

/-- The value fields Decode fills and the registers it reads for them. -/
def sources (i : Instr) : List (ValueSlot × Nat) :=
  [.rs1, .rs2, .rs3].zip (i.sourceFields.map Int.toNat)

theorem sources_registers (i : Instr) : (sources i).map (·.2) = i.sourceFields.map Int.toNat := by
  cases i <;> rfl

/-- Decode of an instruction that passes the field check, before the end of Decode: a branch goes by its budget, HALT freezes
Fetch, every other is gated on its sources (R108, R209, R214). -/
def decodeUpdate (i : Instr) (s : State) : State :=
  match i.opcode with
  | .bz | .bnz => branchBudget s
  | .halt => freezeFetch s
  | _ => gateAndRead (sources i) s

theorem decodeUpdate_status (i : Instr) (s : State) : (decodeUpdate i s).status = s.status := by
  unfold decodeUpdate
  split <;> simp

/-- What Decode's action is, for every instruction: the update of its kind when the fields are in range, and else the raise for the
first field that is not. -/
theorem exists_decode_action (i : Instr) : ∃ d e1 e2 m1 m2 w, ∃ c : State → Bool,
    (∀ s, exec i s = perform s d e1 e2 m1 m2 w (c s)) ∧
    (∀ s, i.fieldsInRange s.cfg = true → d s = .next (decodeUpdate i s)) ∧
    ∀ (f : Field) (v : Int) (s : State),
      (i.registerFields s.cfg.jumpBase).find? (fun p => !inRange s.cfg.nreg p.2) = some (f, v) →
      d s = raise .addressOutOfRange s.own.pc (.register f v) s := by
  cases i with
  | bz _ | bnz _ | halt | nop => exact ⟨_, _, _, _, _, _, _, fun _ => rfl, fun _ _ => rfl, fun _ _ _ hfind => nomatch hfind⟩
  | _ =>
    refine ⟨_, _, _, _, _, _, _, fun _ => rfl, fun s hfields => ?_, fun f v s hfind => ?_⟩
    · simp only [Instr.fieldsInRange, Instr.registerFields, List.all_cons, List.all_nil, Bool.and_eq_true, and_true] at hfields
      simp only [decodeR3, decodeRI, checkField_of_inRange, hfields]
      rfl
    · repeat refine checkField_of_find? ‹_› fun _ _ => ?_
      exact nomatch ‹List.find? _ [] = some (f, v)›

theorem exec_decode_of_inRange {i : Instr} {s : State} (hruns : s.runs .decode) (hfields : i.fieldsInRange s.cfg = true) :
    exec i s = .next (issue (decodeUpdate i s)) := by
  obtain ⟨d, e1, e2, m1, m2, w, c, hi, hd, -⟩ := exists_decode_action i
  rw [hi, perform_decode hruns.1, hd s hfields, thenRun_of_running _ ((decodeUpdate_status i s).trans hruns.2)]

/-- A field out of range raises, and nothing else happens (R233). -/
theorem exec_decode_of_find? {i : Instr} {s : State} {f : Field} {v : Int} (hstage : s.stage = .decode)
    (hfind : (i.registerFields s.cfg.jumpBase).find? (fun p => !inRange s.cfg.nreg p.2) = some (f, v)) :
    exec i s = .next (s.raised .addressOutOfRange s.latches.drf.pc (.register f v)) := by
  obtain ⟨d, e1, e2, m1, m2, w, c, hi, -, hraise⟩ := exists_decode_action i
  rw [hi, perform_decode hstage, hraise f v s hfind, raise_eq, thenRun_of_stopped _ (by simp), State.own_of_stage hstage]
  rfl

/-- Settles O14: what Decode's action is on a field out of range. -/
theorem firstFieldOutOfRangeFaults : Obligations.FirstFieldOutOfRangeFaults :=
  fun _ _ _ _ hruns hfind => exec_decode_of_find? hruns.1 hfind

/-- Either the fields are in range, or there is a first one that is not. -/
theorem fieldsInRange_or_find? (i : Instr) (c : Config) : i.fieldsInRange c = true ∨
    ∃ f v, (i.registerFields c.jumpBase).find? (fun p => !inRange c.nreg p.2) = some (f, v) ∧ inRange c.nreg v = false := by
  cases hfind : (i.registerFields c.jumpBase).find? (fun p => !inRange c.nreg p.2) with
  | none => exact .inl (by simpa [Instr.fieldsInRange] using hfind)
  | some p => exact .inr ⟨p.1, p.2, rfl, by simpa using List.find?_some hfind⟩

/-- All that Decode of an instruction can have done: the update of its kind and Decode's end, or the raise. -/
theorem exec_decode_next {i : Instr} {s t : State} (hstage : s.stage = .decode) (h : exec i s = .next t) :
    (i.fieldsInRange s.cfg = true ∧ t = endedWith issue (decodeUpdate i s)) ∨
    ∃ f v, inRange s.cfg.nreg v = false ∧ t = s.raised .addressOutOfRange s.latches.drf.pc (.register f v) := by
  obtain hfields | ⟨f, v, hfind, hv⟩ := fieldsInRange_or_find? i s.cfg
  · obtain ⟨d, e1, e2, m1, m2, w, c, hi, hd, -⟩ := exists_decode_action i
    rw [hi, perform_decode hstage] at h
    obtain ⟨u, hu, rfl⟩ := thenRun_next_end h
    cases (hd s hfields).symm.trans hu
    exact .inl ⟨hfields, rfl⟩
  · cases (exec_decode_of_find? hstage hfind).symm.trans h
    exact .inr ⟨f, v, hv, rfl⟩

theorem issue_decodeUpdate_status (i : Instr) (s : State) : (issue (decodeUpdate i s)).status = s.status := by
  rw [issue_status, decodeUpdate_status]

/-- Settles O15: the field check passes, and no update of Decode writes the status. -/
theorem wellFormedInstructionsPassTheFieldCheck : Obligations.WellFormedInstructionsPassTheFieldCheck := by
  intro i s hruns hfields
  exact ⟨_, exec_decode_of_inRange hruns hfields, (issue_decodeUpdate_status i s).trans hruns.2⟩

/-- Only instructions that are gated have sources. -/
theorem decodeUpdate_of_source {i : Instr} {v : Int} (hv : v ∈ i.sourceFields) (s : State) :
    decodeUpdate i s = gateAndRead (sources i) s := by
  cases i with
  | bz _ | bnz _ | halt => cases hv
  | _ => rfl

/-- A reserved source register holds its reader in Decode (R108). -/
theorem exec_decode_of_reserved {i : Instr} {s : State} {r : Nat} (hruns : s.runs .decode)
    (hfields : i.fieldsInRange s.cfg = true) (hr : (r : Int) ∈ i.sourceFields) (hreserved : s.isValid r = false) :
    exec i s = .next s.held := by
  obtain ⟨p, hp, hpr⟩ : ∃ p ∈ sources i, p.2 = r := by
    have hmem : r ∈ (sources i).map (·.2) := by
      rw [sources_registers]
      exact List.mem_map_of_mem (f := Int.toNat) hr
    simpa using hmem
  rw [exec_decode_of_inRange hruns hfields, decodeUpdate_of_source hr,
    gateAndRead_of_reserved ⟨p, hp, hpr ▸ hreserved⟩]
  rfl

theorem sourceFields_subset (i : Instr) (ji : Field) : i.sourceFields ⊆ (i.registerFields ji).map (·.2) := by
  cases i <;> simp [Instr.sourceFields, Instr.registerFields]

theorem inRange_of_mem_sourceFields {i : Instr} {c : Config} {v : Int} (hfields : i.fieldsInRange c = true)
    (hv : v ∈ i.sourceFields) : inRange c.nreg v = true := by
  obtain ⟨p, hp, rfl⟩ := List.mem_map.mp (sourceFields_subset i c.jumpBase hv)
  exact List.all_eq_true.mp hfields p hp

/-- A valid source field is a valid source. -/
theorem isValid_of_mem_sources {i : Instr} {s : State} (hfields : i.fieldsInRange s.cfg = true)
    (hvalid : ∀ r : Nat, (r : Int) ∈ i.sourceFields → s.isValid r = true) : ∀ p ∈ sources i, s.isValid p.2 = true := by
  intro p hp
  obtain ⟨v, hv, hpv⟩ : ∃ v ∈ i.sourceFields, v.toNat = p.2 := by
    have hmem : p.2 ∈ (sources i).map (·.2) := List.mem_map_of_mem hp
    rwa [sources_registers, List.mem_map] at hmem
  obtain ⟨r, rfl, -⟩ := exists_reg_of_inRange (inRange_of_mem_sourceFields hfields hv)
  obtain rfl : r = p.2 := hpv
  exact hvalid p.2 hv

/-- With every source valid an instruction other than a branch leaves Decode with `L[DRF]` not stalled. -/
theorem decodeUpdate_not_stalled {i : Instr} {s : State} (hvalid : ∀ p ∈ sources i, s.isValid p.2 = true)
    (hbranch : i.isBranch = false) : (decodeUpdate i s).latches.drf.stalled = false := by
  have hgate : (gateAndRead (sources i) s).latches.drf.stalled = false := by
    rw [gateAndRead_of_valid hvalid]
    rfl
  cases i with
  | bz _ | bnz _ => cases hbranch
  | halt => rfl
  | _ => exact hgate

/-- The end of Decode of an instruction that is not stalled: both latches hold it (R107). -/
theorem issue_of_not_stalled {s : State} (hstalled : s.latches.drf.stalled = false) :
    (issue s).latches.drf = s.latches.drf ∧ (issue s).latches.ex1 = s.latches.drf := by
  have hd : (s.latch .decode).stalled = false := hstalled
  simp only [issue, hd]
  exact ⟨rfl, rfl⟩

/-- Settles O16: the gate with a source reserved, and with every source valid. -/
theorem scoreboardGateHoldsEveryReader : Obligations.ScoreboardGateHoldsEveryReader := by
  intro i s hruns hfields
  refine ⟨fun ⟨r, hr, hreserved⟩ => exec_decode_of_reserved hruns hfields hr hreserved, fun hvalid hbranch => ?_⟩
  have hstalled := decodeUpdate_not_stalled (isValid_of_mem_sources hfields hvalid) hbranch
  obtain ⟨hdrf, hex1⟩ := issue_of_not_stalled hstalled
  exact ⟨_, exec_decode_of_inRange hruns hfields, hdrf ▸ hstalled, hex1.trans hdrf.symm⟩

/-! ### Stores (R189, R192, R193) -/

section
variable {i : Instr} {d e1 e2 m1 m2 w : State → Result} {c : Bool} {s : State}

/-- Execute1 of an instruction that only computes its effective address there. -/
theorem exec_execute1_of_setMemAddress {ea : State → Int}
    (hi : ∀ s, exec i s = perform s d (fun s => .next (setMemAddress (ea s) s)) e2 m1 m2 w c)
    (hruns : s.runs .execute1) (hactive : s.latches.ex1.active = true) :
    exec i s = .next (s.advanced .execute1 { s.latches.ex1 with memAddress := ea s }) := by
  rw [hi, perform_execute1 hruns.1, setMemAddress, State.own_of_stage hruns.1]
  exact thenRun_forward_setOwn hruns (by decide) hactive

/-- A store that names a cell writes it and moves on (R65, R192, R193). -/
theorem exec_memory1_of_storeCell {k : Nat} (hi : ∀ s, exec i s = perform s d e1 e2 storeCell m2 w c)
    (hruns : s.runs .memory1) (hactive : s.latches.mem1.active = true)
    (hcell : dataIndex? s.cfg s.latches.mem1.memAddress = some k) :
    exec i s = .next ({ s with dmem := Memory.write s.dmem k s.latches.mem1.rs1Value }.advanced .memory1 s.latches.mem1) := by
  have hown : s.own = s.latches.mem1 := State.own_of_stage hruns.1
  have hstored : ({ s with dmem := Memory.write s.dmem k s.latches.mem1.rs1Value } : State).runs .memory1 := hruns
  have haction : storeCell s = .next { s with dmem := Memory.write s.dmem k s.latches.mem1.rs1Value } := by
    simp only [storeCell, memWrite, hown, hcell]
  rw [hi, perform_memory1 hruns.1, haction, thenRun_forward_own hstored (by decide) hactive]
  rfl

/-- A store that names no cell raises in Memory1, and nothing else happens (R65, R231). -/
theorem exec_memory1_of_storeCell_raised (hi : ∀ s, exec i s = perform s d e1 e2 storeCell m2 w c)
    (hruns : s.runs .memory1) (hcell : dataIndex? s.cfg s.latches.mem1.memAddress = none) :
    exec i s = .next (s.raised .addressOutOfRange s.latches.mem1.pc (.data s.latches.mem1.memAddress)) := by
  have hown : s.own = s.latches.mem1 := State.own_of_stage hruns.1
  have haction : storeCell s = raise .addressOutOfRange s.latches.mem1.pc (.data s.latches.mem1.memAddress) s := by
    simp only [storeCell, memWrite, hown, hcell]
  rw [hi, perform_memory1 hruns.1, haction, raise_eq, thenRun_of_stopped _ (by simp)]
  rfl

theorem onlyCounted_of_perform (hi : ∀ s, exec i s = perform s d e1 e2 m1 m2) : onlyCounted i := by
  intro s hruns
  rw [hi, perform_writeback hruns.1, thenRun_of_running _ hruns.2]
  rfl

end

theorem exec_store (a b imm : Int) (s : State) :
    exec (.store a b imm) s = perform s
      (decode := fun s => checkField .rs1 a s fun a => checkField .rs2 b s fun b =>
        .next (gateAndRead [(.rs1, a), (.rs2, b)] s))
      (execute1 := fun s => .next (setMemAddress (effectiveAddress s.cfg.xlen s.own.rs2Value imm) s))
      (memory1 := storeCell) := rfl

theorem exec_str (a b c : Int) (s : State) :
    exec (.str a b c) s = perform s
      (decode := fun s => checkField .rs1 a s fun a => checkField .rs2 b s fun b => checkField .rs3 c s fun c =>
        .next (gateAndRead [(.rs1, a), (.rs2, b), (.rs3, c)] s))
      (execute1 := fun s => .next (setMemAddress (effectiveAddress s.cfg.xlen s.own.rs2Value s.own.rs3Value) s))
      (memory1 := storeCell) := rfl

/-- STORE and STR have the same actions after Execute1. -/
theorem exec_of_isStore {i : Instr} (hi : i.isStore = true) :
    ∃ d e1, ∀ s, exec i s = perform s (decode := d) (execute1 := e1) (memory1 := storeCell) := by
  cases i with
  | store a b imm => exact ⟨_, _, exec_store a b imm⟩
  | str a b c => exact ⟨_, _, exec_str a b c⟩
  | _ => cases hi

theorem store_gatedOn (a b : Nat) (imm : Int) :
    gatedOn (.store a b imm) [a, b] (fun s l => { l with rs1Value := s.readReg a, rs2Value := s.readReg b }) := by
  refine gatedOn_of_gateAndRead (srcs := [(.rs1, a), (.rs2, b)]) (exec_store a b imm) fun s hfields => ?_
  obtain ⟨ha, hb⟩ : a < s.cfg.nreg ∧ b < s.cfg.nreg := by
    simpa [Instr.fieldsInRange, Instr.registerFields] using hfields
  rw [checkField_of_lt _ ha, checkField_of_lt _ hb]

theorem str_gatedOn (a b c : Nat) :
    gatedOn (.str a b c) [a, b, c]
      (fun s l => { l with rs1Value := s.readReg a, rs2Value := s.readReg b, rs3Value := s.readReg c }) := by
  refine gatedOn_of_gateAndRead (srcs := [(.rs1, a), (.rs2, b), (.rs3, c)]) (exec_str a b c) fun s hfields => ?_
  obtain ⟨ha, hb, hc⟩ : a < s.cfg.nreg ∧ b < s.cfg.nreg ∧ c < s.cfg.nreg := by
    simpa [Instr.fieldsInRange, Instr.registerFields] using hfields
  rw [checkField_of_lt _ ha, checkField_of_lt _ hb, checkField_of_lt _ hc]

/-- Settles O8: Decode and Execute1 for each of the two stores, then the later stages once for both, whose actions are the same. -/
theorem storesFollowTheirRules : Obligations.StoresFollowTheirRules := by
  refine ⟨fun a b c imm => ⟨Laws.OpcodeOfEncoding.store a b imm, firstFieldOutOfRangeFaults _,
    Laws.OpcodeOfEncoding.str a b c, firstFieldOutOfRangeFaults _⟩, fun a b c imm => ?_⟩
  refine ⟨store_gatedOn a b imm, str_gatedOn a b c, fun s hruns hactive => ?_, fun i hmem => ?_⟩
  · have hown : s.own = s.latches.ex1 := State.own_of_stage hruns.1
    rw [exec_execute1_of_setMemAddress (exec_store a b imm) hruns hactive,
      exec_execute1_of_setMemAddress (exec_str a b c) hruns hactive, hown]
    exact ⟨rfl, rfl⟩
  · have hstore : i.isStore = true := by
      obtain rfl | rfl : i = .store a b imm ∨ i = .str a b c := by simpa using hmem
      · rfl
      · rfl
    obtain ⟨d, e1, hi⟩ := exec_of_isStore hstore
    refine ⟨forwardsOnly_execute2 hi, fun s hruns hactive => ⟨fun k haddress hk hwf => ?_, fun hout => ?_⟩,
      forwardsOnly_memory2 hi, onlyCounted_of_perform hi⟩
    · have hcell := dataIndex?_eq_some.mpr ⟨haddress, hk⟩
      exact ⟨_, exec_memory1_of_storeCell hi hruns hactive hcell, Memory.read_write_same k _ hwf,
        fun _ hne => Memory.read_write_ne _ _ hne, Memory.wf_write k _ hwf⟩
    · exact exec_memory1_of_storeCell_raised hi hruns (dataIndex?_eq_none.mpr hout)

/-- Settles O20: Writeback of a register producer, whatever it is. -/
theorem everyProducerCommits : Obligations.EveryProducerCommits :=
  fun _ _ _ hruns hdest hrd => exec_writeback_eq_committed hruns hdest hrd

end Sys2Proof.Machine
end

section
namespace Sys2Proof.Machine

/-! ### The scoreboard (R25, R113, R131) -/

section
variable {i : Instr} {s t : State} {v : Int}

theorem reserve_writes_valid (h : reserve v s = .next t) :
    ∃ r : Nat, v = (r : Int) ∧ r < s.cfg.nreg ∧ t.valid = s.valid.set r false := by
  obtain ⟨r, hv, hr, ht⟩ := withDest_next h
  cases ht
  exact ⟨r, hv, hr, rfl⟩

/-- Whatever Execute1 does after the reservation, the scoreboard is as the reservation left it. -/
theorem andAlso_reserve_writes_valid {g : State → State} (hg : ∀ u, (g u).valid = u.valid)
    (h : andAlso (reserve v) (fun u => .next (g u)) s = .next t) :
    ∃ r : Nat, v = (r : Int) ∧ r < s.cfg.nreg ∧ t.valid = s.valid.set r false := by
  obtain ⟨u, hu, rfl⟩ := thenRun_next_end h
  rw [endedWith_keeps State.valid (hg u)]
  exact reserve_writes_valid hu

/-- Execute1 of a producer of `v` reserves its destination (R113). -/
theorem exists_execute1_action (hdest : i.destField? = some v) : ∃ d e1 e2 m1 m2 w, ∃ c : State → Bool,
    (∀ s, exec i s = perform s d e1 e2 m1 m2 w (c s)) ∧
    ∀ s t, e1 s = .next t → ∃ r : Nat, v = (r : Int) ∧ r < s.cfg.nreg ∧ t.valid = s.valid.set r false := by
  cases i with
  | store _ _ _ | str _ _ _ | bz _ | bnz _ | jump _ _ | halt | nop => cases hdest
  | and _ _ _ | or _ _ _ | xor _ _ _ =>
    cases hdest
    exact ⟨_, _, _, _, _, _, _, fun _ => rfl, fun _ _ => reserve_writes_valid⟩
  | _ =>
    cases hdest
    exact ⟨_, _, _, _, _, _, _, fun _ => rfl, fun _ _ => andAlso_reserve_writes_valid fun _ => rfl⟩

theorem exec_execute1_valid (hdest : i.destField? = some v) (hstage : s.stage = .execute1) (h : exec i s = .next t) :
    ∃ r : Nat, v = (r : Int) ∧ r < s.cfg.nreg ∧ t.valid = s.valid.set r false := by
  obtain ⟨d, e1, e2, m1, m2, w, c, hi, he1⟩ := exists_execute1_action hdest
  rw [hi, perform_execute1 hstage] at h
  obtain ⟨u, hu, rfl⟩ := thenRun_next_end h
  rw [endedWith_keeps State.valid (forward_valid u)]
  exact he1 s u hu

theorem commit_writes_valid (h : commit v s = .next t) :
    ∃ r : Nat, v = (r : Int) ∧ r < s.cfg.nreg ∧
      t.valid = if s.sameWriterBehind r then s.valid else s.valid.set r true := by
  obtain ⟨r, rfl, hr, ht⟩ := withDest_next h
  cases ht
  exact ⟨r, rfl, hr, scoreboardRelease_valid _ _ _⟩

theorem commitAs_writes_valid (h : commitAs i v s = .next t) :
    ∃ r : Nat, v = (r : Int) ∧ r < s.cfg.nreg ∧
      t.valid = if s.sameWriterBehind r then s.valid else s.valid.set r true := by
  unfold commitAs at h
  split at h
  · obtain ⟨u, hu, rfl⟩ := thenRun_next_end h
    rw [endedWith_keeps State.valid (by rfl)]
    exact commit_writes_valid hu
  · exact commit_writes_valid h

end

/-- Settles O18: the frame of the scoreboard, the reservation, and the release. -/
theorem scoreboardWrittenInTwoPlaces : Obligations.ScoreboardWrittenInTwoPlaces := by
  intro i s t h
  refine ⟨(exec_frame h).valid, fun v hdest hstage => exec_execute1_valid hdest hstage h, fun v hdest hstage => ?_⟩
  rw [exec_writeback_of_destField? hdest hstage] at h
  obtain ⟨u, hu, rfl⟩ := thenRun_next_end h
  rw [endedWith_keeps State.valid (countRetirement_valid u true)]
  exact commitAs_writes_valid hu

/-! ### The program counter (R28) -/

section
variable {i : Instr} {s t : State}

theorem handToDecode_pc (s : State) :
    (handToDecode s).pc = if s.latches.drf.stalled then s.pc else wrap s.cfg.xlen (s.pc + s.cfg.width) :=
  apply_ite State.pc _ _ _

theorem exec_fetch_next (hstage : s.stage = .fetch) (h : exec i s = .next t) : t = handToDecode s := by
  obtain ⟨d, e1, e2, m1, m2, w, c, hi⟩ := exec_eq_perform i
  cases (perform_fetch hstage).symm.trans ((hi s).symm.trans h)
  rfl

/-- JUMP in Execute1 redirects pc, even where the run has ended. -/
theorem exec_execute1_pc_of_jump {base imm : Int} (hstage : s.stage = .execute1) (h : exec (.jump base imm) s = .next t) :
    t.pc = s.target s.latches.ex1.rs1Value imm := by
  rw [exec_jump, perform_execute1 hstage] at h
  obtain ⟨u, hu, rfl⟩ := thenRun_next_end h
  cases hu
  rw [endedWith_keeps State.pc (forward_pc _), jumpRedirect_pc, State.own_of_stage hstage, (target_eq s _ imm).2]
  rfl

/-- Memory1 of a branch commits a staged target and else writes only latches. -/
theorem exec_memory1_next_of_isBranch (hstage : s.stage = .memory1) (hi : i.isBranch = true) (h : exec i s = .next t) :
    t = endedWith forward (if s.brPending then branchCommit s else s) := by
  obtain ⟨d, e2, hexec⟩ := exec_branch hi
  rw [hexec, perform_memory1 hstage] at h
  obtain ⟨u, hu, rfl⟩ := thenRun_next_end h
  cases hu
  rfl

theorem exec_memory1_pc_of_isBranch (hstage : s.stage = .memory1) (hi : i.isBranch = true) (h : exec i s = .next t) :
    t.pc = if s.brPending then s.brTarget else s.pc := by
  rw [exec_memory1_next_of_isBranch hstage hi h, endedWith_keeps State.pc (forward_pc _)]
  split <;> rfl

end

/-- Settles O21: the three places one by one, and the frame of pc everywhere else. -/
theorem instructionsWritePcInThreePlaces : Obligations.InstructionsWritePcInThreePlaces := by
  intro i s t h
  refine ⟨fun hstage hstalled => ?_, fun base imm hi hstage => ?_, fun hstage hi hpending => ?_, fun hfetch hjump hcommit => ?_⟩
  · rw [exec_fetch_next hstage h, handToDecode_pc, if_neg (by simp [hstalled])]
  · subst hi
    exact exec_execute1_pc_of_jump hstage h
  · rw [exec_memory1_pc_of_isBranch hstage hi h, if_pos hpending]
  · by_cases hstage : s.stage = .fetch
    · rw [exec_fetch_next hstage h, handToDecode_pc, if_pos (by simpa [hstage] using hfetch)]
    · by_cases hbranch : s.stage = .memory1 ∧ i.isBranch = true
      · rw [exec_memory1_pc_of_isBranch hbranch.1 hbranch.2 h, if_neg fun hpending => hcommit ⟨hbranch.1, hbranch.2, hpending⟩]
      · exact (exec_frame h).pc hstage hjump hbranch

/-! ### Data memory (R47, R65) -/

/-- What a store in Memory1 does to data memory: the cell its address names becomes the data value, if it names one. -/
theorem exec_memory1_dmem_of_isStore {i : Instr} {s t : State} (hstage : s.stage = .memory1) (hi : i.isStore = true)
    (h : exec i s = .next t) :
    t.dmem = (dataIndex? s.cfg s.latches.mem1.memAddress).elim s.dmem
      fun k => Memory.write s.dmem k s.latches.mem1.rs1Value := by
  obtain ⟨d, e1, hexec⟩ := exec_of_isStore hi
  rw [hexec, perform_memory1 hstage] at h
  obtain ⟨u, hu, rfl⟩ := thenRun_next_end h
  rw [endedWith_keeps State.dmem (forward_dmem u)]
  obtain ⟨k, hk, hwrite⟩ | ⟨hk, hraise⟩ := memWrite_cases s.own.memAddress s.own.rs1Value s
  · cases hwrite.symm.trans hu
    rw [State.own_of_stage hstage] at hk
    simp only [State.latch, Latches.get] at hk
    rw [hk, State.own_of_stage hstage]
    rfl
  · cases hraise.symm.trans hu
    rw [State.own_of_stage hstage] at hk
    simp only [State.latch, Latches.get] at hk
    rw [hk]
    rfl

/-- Settles O23: the frame of data memory, and a store in Memory1. -/
theorem dataMemoryWrittenOnlyByStores : Obligations.DataMemoryWrittenOnlyByStores := by
  intro i s t h
  have hframe := (exec_frame h).dmem
  by_cases hstore : s.stage = .memory1 ∧ i.isStore = true
  · have hdmem := exec_memory1_dmem_of_isStore hstore.1 hstore.2 h
    refine ⟨fun hne => absurd hstore hne, fun k hk j hj => ?_, fun hnone => ?_⟩
    · rw [hdmem, hk]
      exact Memory.read_write_ne _ _ hj
    · rw [hdmem, hnone]
      rfl
  · rw [hframe hstore]
    exact ⟨fun _ _ => rfl, fun _ _ _ _ => rfl, fun _ => rfl⟩

/-! ### The control registers (R31 to R39) -/

/-- Settles O24: every clause is one of the frame. -/
theorem controlRegistersFrame : Obligations.ControlRegistersFrame := by
  intro i s t h
  have hframe := exec_frame h
  exact ⟨hframe.clock, hframe.cfg, hframe.stage, hframe.completed, hframe.programSize, hframe.bstall, hframe.brPending,
    hframe.brTarget, hframe.jmpAddr, hframe.jmpPending, hframe.haltFlag, hframe.flushedNow, hframe.status⟩

/-! ### Retirement (R134) -/

/-- Writeback of an instruction that is no producer has no action of its own, is a branch's retirement, or HALT's truncation. -/
theorem exec_writeback_of_destField?_none {i : Instr} {s : State} (hruns : s.runs .writeback) (hdest : i.destField? = none) :
    exec i s = .next (
      if i.isBranch then { s with z := false, bstall := 0, completed := s.completed + 1 }
      else if i = .halt then { s with programSize := s.completed + 1, completed := s.completed + 1 }
      else if i = .nop ∧ s.cfg.nopCounts = false then s
      else { s with completed := s.completed + 1 }) := by
  cases i with
  | store a b imm => exact onlyCounted_of_perform (exec_store a b imm) s hruns
  | str a b c => exact onlyCounted_of_perform (exec_str a b c) s hruns
  | jump base imm => exact onlyCounted_of_perform (exec_jump base imm) s hruns
  | bz imm => exact exec_writeback_of_retireBranch (bz_branchOn.exec imm) hruns
  | bnz imm => exact exec_writeback_of_retireBranch (bnz_branchOn.exec imm) hruns
  | halt => exact halt_exec_writeback hruns
  | nop =>
    rw [nop_exec_writeback hruns]
    cases hcounts : s.cfg.nopCounts <;> simp [Instr.isBranch, Instr.opcode]
  | _ => cases hdest

/-- All that Writeback of an instruction can have done. -/
theorem exec_writeback_next {i : Instr} {s t : State} (hruns : s.runs .writeback) (h : exec i s = .next t) :
    (∃ (r : Nat) (z : Bool), i.destField? = some (r : Int) ∧ r < s.cfg.nreg ∧ t = s.committed r z) ∨
    (i.destField? = none ∧ t =
      if i.isBranch then { s with z := false, bstall := 0, completed := s.completed + 1 }
      else if i = .halt then { s with programSize := s.completed + 1, completed := s.completed + 1 }
      else if i = .nop ∧ s.cfg.nopCounts = false then s
      else { s with completed := s.completed + 1 }) := by
  cases hdest : i.destField? with
  | some v =>
    obtain ⟨r, rfl, hr, -⟩ := (registersWrittenOnlyByProducersInWriteback i s t h).2 hruns.1 v hdest
    cases (exec_writeback_eq_committed hruns hdest hr).symm.trans h
    exact .inl ⟨r, _, rfl, hr, rfl⟩
  | none =>
    cases (exec_writeback_of_destField?_none hruns hdest).symm.trans h
    exact .inr ⟨rfl, rfl⟩

/-- Settles O26: every way to retire counts one, but an uncounted NOP. -/
theorem everyRetirementIsCounted : Obligations.EveryRetirementIsCounted := by
  intro i s t h hruns
  obtain ⟨r, z, hdest, -, rfl⟩ | ⟨-, rfl⟩ := exec_writeback_next hruns h
  · rw [if_neg]
    · rfl
    · rintro ⟨rfl, -⟩
      cases hdest
  · by_cases hnop : i = .nop ∧ s.cfg.nopCounts = false
    · obtain ⟨rfl, hcounts⟩ := hnop
      simp [hcounts, Instr.isBranch, Instr.opcode]
    · simp only [if_neg hnop]
      split_ifs <;> rfl

/-! ### The latches (R41, R43, R122) -/

/-- The stage that takes what `S` hands on. -/
def Stage.following : Stage → Stage
  | .fetch => .decode
  | .decode => .execute1
  | .execute1 => .execute2
  | .execute2 => .memory1
  | .memory1 => .memory2
  | .memory2 => .writeback
  | .writeback => .writeback

/-- The writes beyond an instruction's own latch and the next: HALT's freeze, JUMP's busy mark and the flush. -/
def reachesLatch (i : Instr) (s : State) (T : Stage) : Prop :=
  (s.stage = .decode ∧ i.opcode = .halt ∧ T = .fetch) ∨ (s.stage = .execute1 ∧ i.opcode = .jump ∧ T = .decode) ∨
  (s.stage = .memory1 ∧ (i.isBranch = true ∧ s.brPending = true) ∧ T ∈ [Stage.fetch, .decode, .execute1, .execute2])

/-- The latches an instruction may write: in Fetch the next, in Writeback none, else its own, the next and those it reaches. -/
def mayWriteLatch (i : Instr) (s : State) (T : Stage) : Prop :=
  match s.stage with
  | .fetch => T = .decode
  | .writeback => False
  | S => T = S ∨ T = S.following ∨ reachesLatch i s T

/-- If `r` answers a next state, `L[T]` is as it was and the same stage is running. -/
def KeepsLatch (T : Stage) (s : State) (r : Result) : Prop :=
  ∀ t, r = .next t → t.stage = s.stage ∧ t.latch T = s.latch T

section
variable {i : Instr} {s t : State} {T : Stage} {r : Result}

theorem KeepsLatch.next {u : State} (hstage : u.stage = s.stage) (hu : u.latch T = s.latch T) : KeepsLatch T s (.next u) := by
  intro t h
  cases h
  exact ⟨hstage, hu⟩

theorem KeepsLatch.thenRun {f : State → Result} (hr : KeepsLatch T s r)
    (hf : ∀ u, u.stage = s.stage → KeepsLatch T u (f u)) : KeepsLatch T s (thenRun r f) := by
  intro t h
  obtain ⟨u, hu, ⟨-, ht⟩ | ⟨-, rfl⟩⟩ := thenRun_next h
  · obtain ⟨hstage, hkept⟩ := hr u hu
    obtain ⟨hstage', hkept'⟩ := hf u hstage t ht
    exact ⟨hstage'.trans hstage, hkept'.trans hkept⟩
  · exact hr u hu

theorem KeepsLatch.withDest {rd : Int} {k : Nat → Result} (hk : ∀ q, KeepsLatch T s (k q)) :
    KeepsLatch T s (withDest rd s k) := by
  intro t h
  obtain ⟨q, -, -, hq⟩ := withDest_next h
  exact hk q t hq

theorem KeepsLatch.raise (kind : FaultKind) (pc : Int) (info : FaultInfo) : KeepsLatch T s (raise kind pc info s) :=
  .next rfl rfl

theorem setOwn_keepsLatch (hT : T ≠ s.stage) (l : Latch) : KeepsLatch T s (.next (s.setOwn l)) :=
  .next rfl (State.latch_setLatch_ne s l hT)

theorem reserve_keepsLatch (rd : Int) : KeepsLatch T s (reserve rd s) :=
  .withDest fun _ => .next rfl rfl

theorem executeResult_keepsLatch (hT : T ≠ s.stage) (rd : Int) (v : State → Int) : KeepsLatch T s (executeResult rd v s) :=
  (reserve_keepsLatch rd).thenRun fun _ hstage => setOwn_keepsLatch (hstage ▸ hT) _

theorem executeLoadAddress_keepsLatch (hT : T ≠ s.stage) (rd : Int) (ea : State → Int) :
    KeepsLatch T s (executeLoadAddress rd ea s) :=
  (reserve_keepsLatch rd).thenRun fun _ hstage => setOwn_keepsLatch (hstage ▸ hT) _

theorem loadCell_keepsLatch (hT : T ≠ s.stage) : KeepsLatch T s (loadCell s) := by
  unfold loadCell
  obtain ⟨c, -, hread⟩ | ⟨-, hraise⟩ := memRead_cases s.own.memAddress s fun v => .next (setBuffer v s)
  · rw [hread]
    exact setOwn_keepsLatch hT _
  · rw [hraise]
    exact .raise _ _ _

theorem storeCell_keepsLatch : KeepsLatch T s (storeCell s) := by
  unfold storeCell
  obtain ⟨c, -, hwrite⟩ | ⟨-, hraise⟩ := memWrite_cases s.own.memAddress s.own.rs1Value s
  · rw [hwrite]
    exact .next rfl rfl
  · rw [hraise]
    exact .raise _ _ _

theorem resolveBranch_keepsLatch (hT : s.brPending = true → T ∉ [Stage.fetch, .decode, .execute1, .execute2]) :
    KeepsLatch T s (resolveBranch s) := by
  unfold resolveBranch
  split
  · have hkept := hT ‹_›
    refine .next rfl ?_
    cases T with
    | fetch | decode | execute1 | execute2 => simp at hkept
    | memory1 | memory2 | writeback => rfl
  · exact .next rfl rfl

theorem jumpRedirect_keepsLatch (hT : T ≠ s.stage) (hdecode : T ≠ .decode) (imm : Int) :
    KeepsLatch T s (.next (jumpRedirect imm s)) :=
  .next rfl ((State.latch_setLatch_ne _ _ hT).trans (State.latch_setLatch_ne s _ hdecode))

theorem commit_keepsLatch (rd : Int) : KeepsLatch T s (commit rd s) :=
  .withDest fun _ => .next (by simp) (by simp [State.latch])

theorem commitWithFlag_keepsLatch (rd : Int) : KeepsLatch T s (commitWithFlag rd s) :=
  (commit_keepsLatch rd).thenRun fun _ _ => .next rfl rfl

theorem forward_keepsLatch (hT : T ≠ s.stage.following) : KeepsLatch T s (.next (forward s)) := by
  refine .next (forward_stage s) ?_
  unfold forward
  split
  all_goals simp only [‹s.stage = _›, Stage.following] at hT
  · exact State.latch_setLatch_ne s _ hT
  · exact State.latch_setLatch_ne s _ hT
  · exact State.latch_setLatch_ne s _ hT
  · exact State.latch_setLatch_ne s _ hT
  · rfl
  · rfl
  · rfl

theorem handToDecode_keepsLatch (hT : T ≠ .decode) : KeepsLatch T s (.next (handToDecode s)) := by
  unfold handToDecode
  split
  · exact .next rfl rfl
  · exact .next rfl (State.latch_setLatch_ne s _ hT)

theorem decodeUpdate_keepsLatch (hT : T ≠ .decode) (hfreeze : i.opcode = .halt → T ≠ .fetch) :
    KeepsLatch T s (.next (decodeUpdate i s)) := by
  unfold decodeUpdate
  split
  · rw [branchBudget_eq]
    split
    · exact .next rfl (State.latch_setLatch_ne s _ hT)
    · exact .next rfl (State.latch_setLatch_ne s _ hT)
  · rw [branchBudget_eq]
    split
    · exact .next rfl (State.latch_setLatch_ne s _ hT)
    · exact .next rfl (State.latch_setLatch_ne s _ hT)
  · exact .next rfl ((State.latch_setLatch_ne _ _ hT).trans (State.latch_setLatch_ne s _ (hfreeze ‹_›)))
  · obtain ⟨l, hl, -⟩ := gateAndRead_latch (sources i) s
    rw [hl]
    exact .next rfl (State.latch_setLatch_ne s _ hT)

theorem exec_decode_keepsLatch (hstage : s.stage = .decode) (hT : T ≠ .decode) (hnext : T ≠ .execute1)
    (hfreeze : i.opcode = .halt → T ≠ .fetch) : KeepsLatch T s (exec i s) := by
  intro t h
  refine ⟨(exec_frame h).stage, ?_⟩
  obtain ⟨-, rfl⟩ | ⟨f, v, -, rfl⟩ := exec_decode_next hstage h
  · obtain ⟨-, hupdate⟩ := decodeUpdate_keepsLatch hT hfreeze _ rfl
    rw [endedWith_keeps (State.latch · T) (State.latch_setLatch_ne _ _ hnext), hupdate]
  · rfl

/-- Of a meaning only the actions after Decode are left to look at. -/
theorem keepsLatch_of_perform {d e1 e2 m1 m2 w : State → Result} {c : State → Bool}
    (hi : ∀ s, exec i s = perform s d e1 e2 m1 m2 w (c s)) (hT : ¬ mayWriteLatch i s T)
    (he1 : s.stage = .execute1 → T ≠ s.stage → KeepsLatch T s (e1 s) := by exact fun _ _ => .next rfl rfl)
    (he2 : s.stage = .execute2 → T ≠ s.stage → KeepsLatch T s (e2 s) := by exact fun _ _ => .next rfl rfl)
    (hm1 : s.stage = .memory1 → T ≠ s.stage → KeepsLatch T s (m1 s) := by exact fun _ _ => .next rfl rfl)
    (hm2 : s.stage = .memory2 → T ≠ s.stage → KeepsLatch T s (m2 s) := by exact fun _ _ => .next rfl rfl)
    (hw : s.stage = .writeback → KeepsLatch T s (w s) := by exact fun _ => .next rfl rfl) : KeepsLatch T s (exec i s) := by
  unfold mayWriteLatch at hT
  cases hstage : s.stage with
  | fetch =>
    simp only [hstage] at hT
    rw [hi, perform_fetch hstage]
    exact handToDecode_keepsLatch hT
  | decode =>
    simp only [hstage, not_or] at hT
    obtain ⟨hown, hnext, hreach⟩ := hT
    exact exec_decode_keepsLatch hstage hown hnext fun hhalt hfetch => hreach (.inl ⟨hstage, hhalt, hfetch⟩)
  | execute1 =>
    simp only [hstage, not_or] at hT
    rw [hi, perform_execute1 hstage]
    exact (he1 hstage (hstage ▸ hT.1)).thenRun fun u hu => forward_keepsLatch (by rw [hu, hstage]; exact hT.2.1)
  | execute2 =>
    simp only [hstage, not_or] at hT
    rw [hi, perform_execute2 hstage]
    exact (he2 hstage (hstage ▸ hT.1)).thenRun fun u hu => forward_keepsLatch (by rw [hu, hstage]; exact hT.2.1)
  | memory1 =>
    simp only [hstage, not_or] at hT
    rw [hi, perform_memory1 hstage]
    exact (hm1 hstage (hstage ▸ hT.1)).thenRun fun u hu => forward_keepsLatch (by rw [hu, hstage]; exact hT.2.1)
  | memory2 =>
    simp only [hstage, not_or] at hT
    rw [hi, perform_memory2 hstage]
    exact (hm2 hstage (hstage ▸ hT.1)).thenRun fun u hu => forward_keepsLatch (by rw [hu, hstage]; exact hT.2.1)
  | writeback =>
    rw [hi, perform_writeback hstage]
    exact (hw hstage).thenRun fun u _ => .next (by simp) (by simp [State.latch])

/-- JUMP's Execute1 may not leave `L[DRF]` alone. -/
theorem ne_decode_of_not_mayWriteLatch (hT : ¬ mayWriteLatch i s T) (hstage : s.stage = .execute1) (hi : i.opcode = .jump) :
    T ≠ .decode := by
  rintro rfl
  simp [mayWriteLatch, reachesLatch, hstage, hi] at hT

/-- Nor a staged branch's Memory1 the latches it flushes. -/
theorem not_flushed_of_not_mayWriteLatch (hT : ¬ mayWriteLatch i s T) (hstage : s.stage = .memory1) (hi : i.isBranch = true)
    (hpending : s.brPending = true) : T ∉ [Stage.fetch, .decode, .execute1, .execute2] := by
  intro hmem
  simp only [mayWriteLatch, hstage, not_or] at hT
  exact hT.2.2 (.inr (.inr ⟨hstage, ⟨hi, hpending⟩, hmem⟩))

theorem exec_keepsLatch (hT : ¬ mayWriteLatch i s T) : KeepsLatch T s (exec i s) := by
  cases i with
  | movc _ _ =>
    exact keepsLatch_of_perform (fun _ => rfl) hT (he1 := fun _ hown => executeResult_keepsLatch hown _ _)
      (hw := fun _ => commit_keepsLatch _)
  | add _ _ _ | addl _ _ _ | sub _ _ _ | subl _ _ _ | mul _ _ _ =>
    exact keepsLatch_of_perform (fun _ => rfl) hT (he1 := fun _ hown => executeResult_keepsLatch hown _ _)
      (hw := fun _ => commitWithFlag_keepsLatch _)
  | and _ _ _ | or _ _ _ | xor _ _ _ =>
    exact keepsLatch_of_perform (fun _ => rfl) hT (he1 := fun _ _ => reserve_keepsLatch _)
      (he2 := fun _ hown => setOwn_keepsLatch hown _) (hw := fun _ => commit_keepsLatch _)
  | load _ _ _ | ldr _ _ _ =>
    exact keepsLatch_of_perform (fun _ => rfl) hT (he1 := fun _ hown => executeLoadAddress_keepsLatch hown _ _)
      (hm2 := fun _ hown => loadCell_keepsLatch hown) (hw := fun _ => commit_keepsLatch _)
  | store _ _ _ | str _ _ _ =>
    exact keepsLatch_of_perform (fun _ => rfl) hT (he1 := fun _ hown => setOwn_keepsLatch hown _)
      (hm1 := fun _ _ => storeCell_keepsLatch)
  | bz _ | bnz _ =>
    exact keepsLatch_of_perform (fun _ => rfl) hT (he2 := fun _ _ => by split <;> exact .next rfl rfl)
      (hm1 := fun hstage _ => resolveBranch_keepsLatch (not_flushed_of_not_mayWriteLatch hT hstage rfl))
      (hw := fun _ => .next rfl rfl)
  | jump _ _ =>
    exact keepsLatch_of_perform (fun _ => rfl) hT
      (he1 := fun hstage hown => jumpRedirect_keepsLatch hown (ne_decode_of_not_mayWriteLatch hT hstage rfl) _)
      (he2 := fun _ hown => setOwn_keepsLatch hown _)
  | halt => exact keepsLatch_of_perform (fun _ => rfl) hT (hw := fun _ => .next rfl rfl)
  | nop => exact keepsLatch_of_perform (fun _ => rfl) hT

theorem exec_latch (hT : ¬ mayWriteLatch i s T) (h : exec i s = .next t) : t.latch T = s.latch T :=
  (exec_keepsLatch hT t h).2

/-- HALT's Decode freezes Fetch (R214); it has no field to check. -/
theorem halt_exec_decode_f (hstage : s.stage = .decode) (h : exec .halt s = .next t) :
    t.latches.f = { s.latches.f with busy := true } := by
  rw [exec_halt, perform_decode hstage] at h
  obtain ⟨u, hu, rfl⟩ := thenRun_next_end h
  cases hu
  exact endedWith_keeps (State.latch · .fetch) (State.latch_setLatch_ne _ _ (by decide))

end

/-- Settles O25: each clause is the frame of one latch, but HALT's freeze. -/
theorem instructionsWriteOnlyTheirLatches : Obligations.InstructionsWriteOnlyTheirLatches := by
  intro i s t h
  have hkept (T : Stage) (hT : ¬ mayWriteLatch i s T) : t.latch T = s.latch T := exec_latch hT h
  refine ⟨fun _ _ _ => hkept .fetch ?_, fun hstage hhalt => .inl ?_, fun _ => hkept .fetch ?_, fun _ _ _ _ => hkept .decode ?_,
    fun _ _ _ => hkept .execute1 ?_, fun _ _ _ => hkept .execute2 ?_, fun hstage hflush => ⟨hkept .fetch ?_, hkept .decode ?_,
    hkept .execute1 ?_, hkept .execute2 ?_⟩, fun _ _ => hkept .memory1 ?_, fun _ _ => hkept .memory2 ?_,
    fun _ => hkept .writeback ?_⟩
  case refine_2 =>
    cases i with
    | halt => exact halt_exec_decode_f hstage h
    | _ => cases hhalt
  all_goals
    cases hstage : s.stage <;> simp_all [mayWriteLatch, reachesLatch, Stage.following]

end Sys2Proof.Machine
end

section
namespace Sys2Proof.Machine

/-! ### The stage procedures around `exec` (R104, R105, R117) -/

/-- The state in which a stage procedure past Decode looks at its latch: Execute2 has applied a pending redirect (R117). -/
def State.entered (s : State) (S : Stage) : State :=
  match S with
  | .execute2 => applyRedirect { s with stage := S }
  | _ => { s with stage := S }

/-- The stages that act on an active latch only (R104). -/
def latePipeline : List Stage := [.execute1, .execute2, .memory1, .memory2, .writeback]

section
variable {s t : State} {S : Stage} {i : Instr}

@[simp] theorem State.entered_stage (s : State) (S : Stage) : (s.entered S).stage = S := by
  cases S <;> simp [State.entered]

@[simp] theorem State.entered_latches (s : State) (S : Stage) : (s.entered S).latches = s.latches := by
  cases S <;> simp [State.entered]

@[simp] theorem State.entered_cfg (s : State) (S : Stage) : (s.entered S).cfg = s.cfg := by
  cases S <;> simp [State.entered]

@[simp] theorem State.entered_status (s : State) (S : Stage) : (s.entered S).status = s.status := by
  cases S <;> simp [State.entered]

@[simp] theorem State.entered_clock (s : State) (S : Stage) : (s.entered S).clock = s.clock := by
  cases S <;> simp [State.entered]

@[simp] theorem State.entered_x (s : State) (S : Stage) : (s.entered S).x = s.x := by
  cases S <;> simp [State.entered]

@[simp] theorem State.entered_dmem (s : State) (S : Stage) : (s.entered S).dmem = s.dmem := by
  cases S <;> simp [State.entered]

@[simp] theorem State.entered_completed (s : State) (S : Stage) : (s.entered S).completed = s.completed := by
  cases S <;> simp [State.entered]

@[simp] theorem State.entered_programSize (s : State) (S : Stage) : (s.entered S).programSize = s.programSize := by
  cases S <;> simp [State.entered]

@[simp] theorem State.entered_brPending (s : State) (S : Stage) : (s.entered S).brPending = s.brPending := by
  cases S <;> simp [State.entered]

@[simp] theorem State.entered_brTarget (s : State) (S : Stage) : (s.entered S).brTarget = s.brTarget := by
  cases S <;> simp [State.entered]

@[simp] theorem State.entered_flushedNow (s : State) (S : Stage) : (s.entered S).flushedNow = s.flushedNow := by
  cases S <;> simp [State.entered]

theorem State.entered_of_ne (s : State) (hS : S ≠ .execute2) : s.entered S = { s with stage := S } := by
  cases S with
  | execute2 => exact absurd rfl hS
  | fetch | decode | execute1 | memory1 | memory2 | writeback => rfl

theorem State.entered_own (s : State) (S : Stage) : (s.entered S).own = s.latch S := by
  rw [State.own_of_stage (s.entered_stage S), State.latch, State.entered_latches, State.latch]

theorem State.entered_execute2 (s : State) : s.entered .execute2 =
    if s.jmpPending then { s with stage := .execute2, pc := s.jmpAddr, jmpPending := false }
    else { s with stage := .execute2 } := rfl

theorem runStage_eq_runIfActive (hS : S ∈ latePipeline) (s : State) : runStage S s = runIfActive (s.entered S) := by
  cases S with
  | fetch | decode => simp [latePipeline] at hS
  | execute1 | execute2 | memory1 | memory2 | writeback => rfl

theorem runOwn_of_instr? (hi : s.own.instr? s.cfg.jumpBase = some i) : runOwn s = exec i s := by
  rw [runOwn, hi]

theorem runStage_of_inactive (hS : S ∈ latePipeline) (hactive : (s.latch S).active = false) :
    runStage S s = .next (forward (s.entered S)) := by
  rw [runStage_eq_runIfActive hS, runIfActive, State.entered_own, if_neg (by simp [hactive])]

theorem runStage_of_active (hS : S ∈ latePipeline) (hactive : (s.latch S).active = true) :
    runStage S s = runOwn (s.entered S) := by
  rw [runStage_eq_runIfActive hS, runIfActive, State.entered_own, if_pos hactive]

theorem runStage_of_instr? (hS : S ∈ latePipeline) (hactive : (s.latch S).active = true)
    (hi : (s.latch S).instr? s.cfg.jumpBase = some i) : runStage S s = exec i (s.entered S) := by
  rw [runStage_of_active hS hactive]
  exact runOwn_of_instr? (by rwa [State.entered_own, State.entered_cfg])

theorem runStage_decode_of_instr? (hbusy : s.latches.drf.busy = false) (hi : s.latches.drf.instr? s.cfg.jumpBase = some i) :
    runStage .decode s = exec i { s with stage := .decode } := by
  rw [runStage_decode_of_op hbusy (Latch.opcode_of_instr? hi)]
  exact runOwn_of_instr? hi

end

/-- Settles O28: each procedure by the lemma for its latch, Execute2 from the state it enters. -/
theorem stageProceduresRunTheirInstruction : Obligations.StageProceduresRunTheirInstruction := by
  intro s i
  refine ⟨fun hi hbusy => runStage_decode_of_instr? hbusy hi, fun S hS hi hactive => ?_, fun hi hactive => ?_⟩
  · have hne : S ≠ .execute2 := by
      rintro rfl
      simp at hS
    have hlate : S ∈ latePipeline := by
      simp only [List.mem_cons, List.not_mem_nil, or_false] at hS
      obtain rfl | rfl | rfl | rfl := hS <;> decide
    rw [runStage_of_instr? hlate hactive hi, State.entered_of_ne s hne]
  · have hrun : runStage .execute2 s = exec i (s.entered .execute2) := runStage_of_instr? (by decide) hactive hi
    refine ⟨fun hpending => ?_, fun hpending => ?_⟩
    · rw [hrun, State.entered_execute2, if_neg (by simp [hpending])]
    · rw [hrun, State.entered_execute2, if_pos hpending]

/-- Settles O30: an inactive latch is handed on as a bubble, from the state its procedure enters. -/
theorem inactiveLatchesForwardBubbles : Obligations.InactiveLatchesForwardBubbles := by
  intro s
  refine ⟨fun hactive => ?_, fun hactive hpending => ?_, fun hactive hpending => ?_, fun hactive => ?_, fun hactive => ?_,
    fun hactive => ?_⟩
  · rw [runStage_of_inactive (S := .execute1) (by decide) hactive, ← Latch.forwarded_of_inactive hactive]
    rfl
  · rw [runStage_of_inactive (S := .execute2) (by decide) hactive, ← Latch.forwarded_of_inactive hactive, State.entered_execute2,
      if_neg (by simp [hpending])]
    rfl
  · rw [runStage_of_inactive (S := .execute2) (by decide) hactive, ← Latch.forwarded_of_inactive hactive, State.entered_execute2,
      if_pos hpending]
    rfl
  · rw [runStage_of_inactive (S := .memory1) (by decide) hactive, ← Latch.forwarded_of_inactive hactive]
    rfl
  · rw [runStage_of_inactive (S := .memory2) (by decide) hactive, ← Latch.forwarded_of_inactive hactive]
    rfl
  · exact runStage_of_inactive (by decide) hactive

/-- Settles O31. -/
theorem busyOrEmptyDecodeSendsABubble : Obligations.BusyOrEmptyDecodeSendsABubble :=
  fun _ => runStage_decode_of_not_decoded

/-! ### The step (R38, R100, R106) -/

/-- Settles O34: the step looks at the status first. -/
theorem endedRunsNeverChange : Obligations.EndedRunsNeverChange := by
  intro s hended
  rw [step, stepOf]
  split
  · exact absurd ‹_› hended
  · rfl
  · rfl
  · rfl

theorem step_of_ticks {s : State} (hticks : s.ticks) :
    step s = thenRun (beforeFetch { s with flushedNow := false }) fun u => thenRun (runStage .fetch u) endTick := by
  obtain ⟨hrunning, hmore, hbudget⟩ := hticks
  rw [step_of_running hrunning, tick, if_neg hmore, if_neg hbudget]

/-- The latch Fetch fills holds the instruction the record decodes to. -/
theorem fetchedLatch_instr? {ji : Field} {r : Record} {i : Instr} (pc : Int) (hdecode : decode ji r = .instr i) :
    (fetchedLatch pc r).instr? ji = some i := by
  unfold decode at hdecode
  split at hdecode
  · rename_i o ho
    cases hdecode
    simp only [fetchedLatch, latchOpOf, ho, Latch.instr?]
  · cases hdecode

/-- `exec` in Fetch, with the record's latch in `L[F]`, is the end of Fetch. -/
theorem exec_fetch (i : Instr) (u : State) (l : Latch) :
    exec i { u with stage := .fetch, latches := { u.latches with f := l } } = .next (u.fetched l) := by
  obtain ⟨d, e1, e2, m1, m2, w, c, hi⟩ := exec_eq_perform i
  rw [hi, perform_fetch rfl]
  rfl

/-- Settles O29: Fetch of a record is `exec` in Fetch, and both are the end of Fetch. -/
theorem stepRunsTheFetchedInstruction : Obligations.StepRunsTheFetchedInstruction := by
  intro s u r i hticks hbefore hrunning hheld hcode hdecode l
  have hstep : step s = thenRun (.next (u.fetched l)) endTick := by
    rw [step_of_ticks hticks, hbefore, thenRun_of_running _ hrunning, runStage_fetch_of_codeAt? hheld hcode]
  have hnext : step s = endTick (u.fetched l) := by
    rw [hstep, thenRun_of_running _ ((u.fetched_status l).trans hrunning)]
  refine ⟨?_, fetchedLatch_instr? u.pc hdecode, fun hstalled => ?_, fun hstalled => ?_⟩
  · rw [hstep, exec_fetch]
    rfl
  · rw [hnext, State.fetched, if_neg (by simp [hstalled])]
    rfl
  · rw [hnext, State.fetched, if_pos hstalled]
    rfl

/-! ### The invariants at construction (R54, R55) -/

/-- Settles O50. -/
theorem constructionMeetsTheRedirectInvariant : Obligations.ConstructionMeetsTheRedirectInvariant :=
  fun _ => ⟨nofun, nofun, nofun, rfl⟩

/-- The constraints on the parameters, taken apart (R6). -/
theorem config_wellFormed_iff {c : Config} : c.wellFormed = true ↔
    isPowerOfTwo c.width = true ∧ alignedTo c.width c.codeBase = true ∧ c.wordsFit = true ∧ Memory.wf c.dmemInit = true ∧
      ∀ p ∈ c.dmemInit, p.1 < c.dmemSize := by
  simp [Config.wellFormed, and_assoc]

theorem alignedTo_zero (w : Nat) : alignedTo w 0 = true := by simp [alignedTo]

/-- Settles O45: pc and memory by the constraints, the rest is 0 or a bubble. -/
theorem constructionMeetsTheInvariant : Obligations.ConstructionMeetsTheInvariant := by
  intro cfg hcfg
  obtain ⟨-, hbase, -, hwf, hcells⟩ := config_wellFormed_iff.mp hcfg
  exact {
    cfgOk := hcfg
    pcAligned := hbase
    brTargetAligned := alignedTo_zero _
    jmpAddrAligned := alignedTo_zero _
    registerCount := List.length_replicate
    validCount := List.length_replicate
    bstallInBudget := Nat.zero_le _
    memCanonical := hwf
    memInRange := hcells
    fetchNotStalled := rfl
    ex1Ok := rfl
    ex2Ok := rfl
    mem1Ok := rfl
    mem2Ok := rfl
    wbOk := rfl
    mem1NoJump := rfl
    mem2NoJump := rfl
    wbNoJump := rfl }

theorem config_wordsFit_iff {c : Config} : c.wordsFit = true ↔
    isWord c.xlen c.codeBase = true ∧ (∀ p ∈ c.dmemInit, isWord c.xlen p.2 = true) ∧
      ∀ r ∈ c.code, isWord c.xlen r.imm = true := by
  simp [Config.wordsFit, and_assoc]

@[simp] theorem bubble_wordsFit (n : Nat) (st : Bool) : (bubble st).wordsFit n = true := by
  simp [Latch.wordsFit, bubble]

/-- Settles O48: CODE_BASE and DMEM_INIT by the constraints, the rest is 0. -/
theorem constructionMakesWords : Obligations.ConstructionMakesWords := by
  intro cfg hcfg
  obtain ⟨-, -, hwords, -, -⟩ := config_wellFormed_iff.mp hcfg
  obtain ⟨hbase, hcells, -⟩ := config_wordsFit_iff.mp hwords
  refine ⟨hwords, fun v hv => ?_, hcells, hbase, isWord_zero _, isWord_zero _, fun S => ?_⟩
  · obtain rfl := List.eq_of_mem_replicate hv
    exact isWord_zero _
  · cases S with
    | fetch => exact bubble_wordsFit _ false
    | decode | execute1 | execute2 | memory1 | memory2 | writeback => exact bubble_wordsFit _ false

end Sys2Proof.Machine
end

section
namespace Sys2Proof.Machine

/-! ### What an active instruction can do in each stage past Decode, while the run goes on -/

/-- `l'` is `l` with results: the same instruction with the same marks, and words where `l` has words and `i` has a word for its
literal. -/
structure Latch.Computed (n : Nat) (i : Instr) (l l' : Latch) : Prop where
  results : ∃ b m a : Int, l' = { l with buffer := b, memAddress := m, nextAddr := a }
  words : i.literal?.all (isWord n) = true → l.wordsFit n = true → l'.wordsFit n = true

theorem Latch.wordsFit_iff {n : Nat} {l : Latch} : l.wordsFit n = true ↔
    isWord n l.pc = true ∧ isWord n l.imm = true ∧ isWord n l.rs1Value = true ∧ isWord n l.rs2Value = true ∧
    isWord n l.rs3Value = true ∧ isWord n l.buffer = true ∧ isWord n l.memAddress = true ∧ isWord n l.nextAddr = true := by
  simp [Latch.wordsFit]

section
variable {n : Nat} {i : Instr} {l l' : Latch}

theorem Latch.Computed.refl (n : Nat) (i : Instr) (l : Latch) : Latch.Computed n i l l :=
  ⟨⟨l.buffer, l.memAddress, l.nextAddr, rfl⟩, fun _ hl => hl⟩

theorem Latch.Computed.buffer {v : Int} (hv : i.literal?.all (isWord n) = true → isWord n v = true) :
    Latch.Computed n i l { l with buffer := v } := by
  refine ⟨⟨v, l.memAddress, l.nextAddr, rfl⟩, fun hi hl => ?_⟩
  obtain ⟨hpc, himm, h1, h2, h3, -, hm, ha⟩ := Latch.wordsFit_iff.mp hl
  exact Latch.wordsFit_iff.mpr ⟨hpc, himm, h1, h2, h3, hv hi, hm, ha⟩

theorem Latch.Computed.memAddress {v : Int} (hv : isWord n v = true) : Latch.Computed n i l { l with memAddress := v } := by
  refine ⟨⟨l.buffer, v, l.nextAddr, rfl⟩, fun _ hl => ?_⟩
  obtain ⟨hpc, himm, h1, h2, h3, hb, -, ha⟩ := Latch.wordsFit_iff.mp hl
  exact Latch.wordsFit_iff.mpr ⟨hpc, himm, h1, h2, h3, hb, hv, ha⟩

theorem Latch.Computed.nextAddr {v : Int} (hv : isWord n v = true) : Latch.Computed n i l { l with nextAddr := v } := by
  refine ⟨⟨l.buffer, l.memAddress, v, rfl⟩, fun _ hl => ?_⟩
  obtain ⟨hpc, himm, h1, h2, h3, hb, hm, -⟩ := Latch.wordsFit_iff.mp hl
  exact Latch.wordsFit_iff.mpr ⟨hpc, himm, h1, h2, h3, hb, hm, hv⟩

theorem Latch.Computed.active (h : Latch.Computed n i l l') : l'.active = l.active := by
  obtain ⟨b, m, a, rfl⟩ := h.results
  rfl

theorem Latch.Computed.pc (h : Latch.Computed n i l l') : l'.pc = l.pc := by
  obtain ⟨b, m, a, rfl⟩ := h.results
  rfl

theorem Latch.Computed.instr? (h : Latch.Computed n i l l') (ji : Field) : l'.instr? ji = l.instr? ji := by
  obtain ⟨b, m, a, rfl⟩ := h.results
  rfl

theorem Latch.Computed.inFlightOk (h : Latch.Computed n i l l') (c : Config) : l'.inFlightOk c = l.inFlightOk c := by
  obtain ⟨b, m, a, rfl⟩ := h.results
  rfl

theorem Latch.Computed.noJump (h : Latch.Computed n i l l') : l'.noJump = l.noJump := by
  obtain ⟨b, m, a, rfl⟩ := h.results
  rfl

end

section
variable {i : Instr} {s t : State}

/-! #### Execute1 (R113) -/

/-- Every producer reserves its destination in Execute1 and goes on with results in its latch. -/
theorem exists_reservesIn1 {rd : Nat} (hdest : i.destField? = some (rd : Int)) :
    ∃ e, reservesIn1 i rd e ∧ ∀ s l, Latch.Computed s.cfg.xlen i l (e s l) := by
  cases i with
  | movc _ imm =>
    cases hdest
    exact ⟨_, reservesIn1_of_executeResult (v := fun _ _ => imm) (fun _ => rfl),
      fun _ _ => .buffer fun hi => by simpa [Instr.literal?] using hi⟩
  | add _ _ _ =>
    cases hdest
    exact ⟨_, reservesIn1_of_executeResult (v := fun n l => wrap n (l.rs1Value + l.rs2Value)) (fun _ => rfl),
      fun _ _ => .buffer fun _ => isWord_wrap _ _⟩
  | sub _ _ _ =>
    cases hdest
    exact ⟨_, reservesIn1_of_executeResult (v := fun n l => wrap n (l.rs1Value - l.rs2Value)) (fun _ => rfl),
      fun _ _ => .buffer fun _ => isWord_wrap _ _⟩
  | mul _ _ _ =>
    cases hdest
    exact ⟨_, reservesIn1_of_executeResult (v := fun n l => wrap n (l.rs1Value * l.rs2Value)) (fun _ => rfl),
      fun _ _ => .buffer fun _ => isWord_wrap _ _⟩
  | addl _ _ imm =>
    cases hdest
    exact ⟨_, reservesIn1_of_executeResult (v := fun n l => wrap n (l.rs1Value + imm)) (fun _ => rfl),
      fun _ _ => .buffer fun _ => isWord_wrap _ _⟩
  | subl _ _ imm =>
    cases hdest
    exact ⟨_, reservesIn1_of_executeResult (v := fun n l => wrap n (l.rs1Value - imm)) (fun _ => rfl),
      fun _ _ => .buffer fun _ => isWord_wrap _ _⟩
  | and _ _ _ | or _ _ _ | xor _ _ _ =>
    cases hdest
    exact ⟨_, reservesIn1_of_reserveOnly (fun _ => rfl), fun _ l => .refl _ _ l⟩
  | load _ _ imm =>
    cases hdest
    exact ⟨_, reservesIn1_of_executeLoadAddress (ea := fun n l => effectiveAddress n l.rs1Value imm) (fun _ => rfl),
      fun _ _ => .memAddress (isWord_wrap _ _)⟩
  | ldr _ _ _ =>
    cases hdest
    exact ⟨_, reservesIn1_of_executeLoadAddress (ea := fun n l => effectiveAddress n l.rs1Value l.rs2Value) (fun _ => rfl),
      fun _ _ => .memAddress (isWord_wrap _ _)⟩
  | store _ _ _ | str _ _ _ | bz _ | bnz _ | jump _ _ | halt | nop => cases hdest

/-- Execute1 of an instruction that is neither a producer nor a JUMP writes latches only. -/
theorem exec_execute1_of_latchesOnly (hruns : s.runs .execute1) (hactive : s.latches.ex1.active = true)
    (hdest : i.destField? = none) (hjump : i.opcode ≠ .jump) :
    ∃ l, exec i s = .next (s.advanced .execute1 l) ∧ Latch.Computed s.cfg.xlen i s.latches.ex1 l := by
  cases i with
  | store a b imm =>
    exact ⟨_, exec_execute1_of_setMemAddress (exec_store a b imm) hruns hactive, .memAddress (isWord_wrap _ _)⟩
  | str a b c => exact ⟨_, exec_execute1_of_setMemAddress (exec_str a b c) hruns hactive, .memAddress (isWord_wrap _ _)⟩
  | bz _ | bnz _ | halt => exact ⟨_, forwardsOnly_execute1 (fun _ => rfl) s hruns hactive, .refl _ _ _⟩
  | nop => exact ⟨_, nop_forwardsOnly (by decide) s hruns hactive, .refl _ _ _⟩
  | jump _ _ => exact absurd rfl hjump
  | _ => cases hdest

/-- All that Execute1 of an active latch's instruction can have done to the state but for the two latches: nothing, a
reservation, or JUMP's redirect. -/
theorem exec_execute1_next (hruns : s.runs .execute1) (hactive : s.latches.ex1.active = true) (h : exec i s = .next t) :
    ∃ u l, t = u.advanced .execute1 l ∧ Latch.Computed s.cfg.xlen i s.latches.ex1 l ∧
      ((i.opcode ≠ .jump ∧ u = s) ∨ (i.opcode ≠ .jump ∧ ∃ r, u = { s with valid := s.valid.set r false }) ∨
        (i.opcode = .jump ∧ ∃ imm, u = s.redirected (s.target s.latches.ex1.rs1Value imm))) := by
  cases hdest : i.destField? with
  | some v =>
    obtain ⟨r, rfl, hr, -⟩ := exec_execute1_valid hdest hruns.1 h
    obtain ⟨e, he, hcomputed⟩ := exists_reservesIn1 hdest
    cases (he s hruns hr hactive).symm.trans h
    refine ⟨_, _, rfl, hcomputed s _, .inr (.inl ⟨?_, r, rfl⟩)⟩
    cases i <;> simp [Instr.opcode, Instr.destField?] at hdest ⊢
  | none =>
    by_cases hjump : i.opcode = .jump
    · cases i with
      | jump base imm =>
        cases (jump_exec_execute1 base imm hruns hactive).symm.trans h
        exact ⟨_, _, rfl, .nextAddr (isWord_wrap _ _), .inr (.inr ⟨rfl, imm, rfl⟩)⟩
      | _ => cases hjump
    · obtain ⟨l, hl, hcomputed⟩ := exec_execute1_of_latchesOnly hruns hactive hdest hjump
      cases hl.symm.trans h
      exact ⟨s, l, rfl, hcomputed, .inl ⟨hjump, rfl⟩⟩

/-! #### Execute2 -/

/-- Execute2 of a branch stages its target or nothing. -/
theorem BranchOn.exec_execute2_next {mk : Int → Instr} {tag : BitVec 8} {taken : Bool} (hbranch : BranchOn mk tag taken)
    {imm : Int} (hruns : s.runs .execute2) (hactive : s.latches.ex2.active = true)
    (h : Machine.exec (mk imm) s = .next t) :
    ∃ u, t = u.advanced .execute2 s.latches.ex2 ∧
      (u = s ∨ u = { s with brTarget := s.target s.latches.ex2.pc imm, brPending := true }) := by
  by_cases hz : s.z = taken
  · cases (hbranch.exec_execute2_of_taken imm hruns hactive hz).symm.trans h
    exact ⟨_, rfl, .inr rfl⟩
  · cases (hbranch.exec_execute2_of_not_taken imm hruns hactive hz).symm.trans h
    exact ⟨_, rfl, .inl rfl⟩

/-- All that Execute2 of an active latch's instruction other than JUMP can have done but for the two latches: nothing, or a
target staged. -/
theorem exec_execute2_next (hruns : s.runs .execute2) (hactive : s.latches.ex2.active = true) (hjump : i.opcode ≠ .jump)
    (h : exec i s = .next t) :
    ∃ u l, t = u.advanced .execute2 l ∧ Latch.Computed s.cfg.xlen i s.latches.ex2 l ∧
      (u = s ∨ ∃ base imm, u = { s with brTarget := s.target base imm, brPending := true }) := by
  cases i with
  | and _ _ _ | or _ _ _ | xor _ _ _ =>
    cases (exec_execute2_of_setBuffer (fun _ => rfl) hruns hactive).symm.trans h
    exact ⟨s, _, rfl, .buffer fun _ => isWord_toInt _, .inl rfl⟩
  | bz imm =>
    obtain ⟨u, rfl, hu⟩ := bz_branchOn.exec_execute2_next hruns hactive h
    exact ⟨u, _, rfl, .refl _ _ _, hu.imp_right fun hu => ⟨_, imm, hu⟩⟩
  | bnz imm =>
    obtain ⟨u, rfl, hu⟩ := bnz_branchOn.exec_execute2_next hruns hactive h
    exact ⟨u, _, rfl, .refl _ _ _, hu.imp_right fun hu => ⟨_, imm, hu⟩⟩
  | jump _ _ => exact absurd rfl hjump
  | nop =>
    cases (nop_forwardsOnly (by decide) s hruns hactive).symm.trans h
    exact ⟨s, _, rfl, .refl _ _ _, .inl rfl⟩
  | _ =>
    cases (forwardsOnly_execute2 (fun _ => rfl) s hruns hactive).symm.trans h
    exact ⟨s, _, rfl, .refl _ _ _, .inl rfl⟩

/-! #### Memory1 and Memory2 -/

/-- All that Memory1 of an active latch's instruction can have done: a store's fault, or nothing, a branch's commit or a store's
write, and then the latch moves on. -/
theorem exec_memory1_next (hruns : s.runs .memory1) (hactive : s.latches.mem1.active = true) (h : exec i s = .next t) :
    (dataIndex? s.cfg s.latches.mem1.memAddress = none ∧
      t = s.raised .addressOutOfRange s.latches.mem1.pc (.data s.latches.mem1.memAddress)) ∨
    ∃ u, t = u.advanced .memory1 s.latches.mem1 ∧
      ((¬ (i.isBranch = true ∧ s.brPending = true) ∧ u = s) ∨
        ((i.isBranch = true ∧ s.brPending = true) ∧ u = branchCommit s) ∨
        (i.isStore = true ∧ ∃ k, dataIndex? s.cfg s.latches.mem1.memAddress = some k ∧
          u = { s with dmem := Memory.write s.dmem k s.latches.mem1.rs1Value })) := by
  by_cases hstore : i.isStore = true
  · obtain ⟨d, e1, hi⟩ := exec_of_isStore hstore
    cases hcell : dataIndex? s.cfg s.latches.mem1.memAddress with
    | none =>
      cases (exec_memory1_of_storeCell_raised hi hruns hcell).symm.trans h
      exact .inl ⟨rfl, rfl⟩
    | some k =>
      cases (exec_memory1_of_storeCell hi hruns hactive hcell).symm.trans h
      exact .inr ⟨_, rfl, .inr (.inr ⟨hstore, k, rfl, rfl⟩)⟩
  · by_cases hbranch : i.isBranch = true
    · obtain ⟨d, e2, hi⟩ := exec_branch hbranch
      cases hpending : s.brPending with
      | true =>
        cases (exec_memory1_of_brPending hi hruns hactive hpending).symm.trans h
        exact .inr ⟨_, rfl, .inr (.inl ⟨⟨hbranch, rfl⟩, rfl⟩)⟩
      | false =>
        cases (exec_memory1_of_not_brPending hi hruns hactive hpending).symm.trans h
        exact .inr ⟨_, rfl, .inl ⟨by simp, rfl⟩⟩
    · have hforwards : forwardsOnly i .memory1 := by
        cases i with
        | store _ _ _ | str _ _ _ => exact absurd rfl hstore
        | bz _ | bnz _ => exact absurd rfl hbranch
        | nop => exact nop_forwardsOnly (by decide)
        | _ => exact forwardsOnly_memory1 fun _ => rfl
      cases (hforwards s hruns hactive).symm.trans h
      exact .inr ⟨_, rfl, .inl ⟨fun hcommit => hbranch hcommit.1, rfl⟩⟩

/-- LOAD and LDR have the same action in Memory2. -/
theorem exec_of_isLoad (hi : i.isLoad = true) :
    ∃ d e1 w, ∀ s, exec i s = perform s (decode := d) (execute1 := e1) (memory2 := loadCell) (writeback := w) := by
  cases i with
  | load rd a imm => exact ⟨_, _, _, exec_load rd a imm⟩
  | ldr rd a b => exact ⟨_, _, _, exec_ldr rd a b⟩
  | _ => cases hi

/-- A load whose address names a cell reads it (R64). -/
theorem exec_memory2_of_isLoad {k : Nat} (hi : i.isLoad = true) (hruns : s.runs .memory2) (hactive : s.latches.mem2.active = true)
    (hcell : dataIndex? s.cfg s.latches.mem2.memAddress = some k) :
    exec i s = .next (s.advanced .memory2 { s.latches.mem2 with buffer := Memory.read s.dmem k }) := by
  obtain ⟨d, e1, w, hexec⟩ := exec_of_isLoad hi
  obtain ⟨haddress, hk⟩ := dataIndex?_eq_some.mp hcell
  exact exec_memory2_of_loadCell hexec hruns hactive haddress hk

/-- All that Memory2 of an active latch's instruction can have done: a load's fault, or the latch moves on, a load's with the
cell's word. -/
theorem exec_memory2_next (hruns : s.runs .memory2) (hactive : s.latches.mem2.active = true) (h : exec i s = .next t) :
    (dataIndex? s.cfg s.latches.mem2.memAddress = none ∧
      t = s.raised .addressOutOfRange s.latches.mem2.pc (.data s.latches.mem2.memAddress)) ∨
    ∃ l, t = s.advanced .memory2 l ∧
      (l = s.latches.mem2 ∨ ∃ k, l = { s.latches.mem2 with buffer := Memory.read s.dmem k }) := by
  by_cases hload : i.isLoad = true
  · obtain ⟨d, e1, w, hi⟩ := exec_of_isLoad hload
    cases hcell : dataIndex? s.cfg s.latches.mem2.memAddress with
    | none =>
      cases (exec_memory2_of_loadCell_raised hi hruns (dataIndex?_eq_none.mp hcell)).symm.trans h
      exact .inl ⟨rfl, rfl⟩
    | some k =>
      cases (exec_memory2_of_isLoad hload hruns hactive hcell).symm.trans h
      exact .inr ⟨_, rfl, .inr ⟨k, rfl⟩⟩
  · have hforwards : forwardsOnly i .memory2 := by
      cases i with
      | load _ _ _ | ldr _ _ _ => exact absurd rfl hload
      | nop => exact nop_forwardsOnly (by decide)
      | _ => exact forwardsOnly_memory2 fun _ => rfl
    cases (hforwards s hruns hactive).symm.trans h
    exact .inr ⟨_, rfl, .inl rfl⟩

end

end Sys2Proof.Machine
end

section
namespace Sys2Proof.Machine

/-! ### The instruction a latch past Decode acts as -/

/-- What an active latch past Decode acts as, but for the count of its retirement: an unknown opcode has no action, as a NOP has
none (log entry 10). -/
def Latch.meaning (ji : Field) (l : Latch) : Instr := (l.instr? ji).getD .nop

section
variable {ji : Field} {l : Latch} {o : Opcode} {i : Instr}

theorem Latch.instr?_of_op (ho : l.opcode = .op o) :
    l.instr? ji = some (decodeFields ji o l.rd l.rs1 l.rs2 l.rs3 l.imm) := by
  simp only [Latch.instr?, ho]

theorem Latch.meaning_of_instr? (hi : l.instr? ji = some i) : l.meaning ji = i := by
  rw [Latch.meaning, hi, Option.getD_some]

theorem Latch.meaning_of_op (ho : l.opcode = .op o) : l.meaning ji = decodeFields ji o l.rd l.rs1 l.rs2 l.rs3 l.imm :=
  Latch.meaning_of_instr? (Latch.instr?_of_op ho)

theorem Latch.meaning_opcode_iff (hne : o ≠ .nop) : (l.meaning ji).opcode = o ↔ l.opcode = .op o := by
  constructor
  · intro h
    cases hi : l.instr? ji with
    | none =>
      rw [Latch.meaning, hi] at h
      exact absurd h.symm hne
    | some i =>
      rw [Latch.meaning_of_instr? hi] at h
      rw [Latch.opcode_of_instr? hi, h]
  · intro ho
    rw [Latch.meaning_of_op ho, decodeFields_opcode]

theorem Latch.meaning_isBranch_iff : (l.meaning ji).isBranch = true ↔ l.opcode = .op .bz ∨ l.opcode = .op .bnz := by
  simp [Instr.isBranch, Latch.meaning_opcode_iff]

theorem Latch.meaning_isStore_iff : (l.meaning ji).isStore = true ↔ l.opcode = .op .store ∨ l.opcode = .op .str := by
  simp [Instr.isStore, Latch.meaning_opcode_iff]

theorem Latch.noJump_iff : l.noJump = true ↔ l.opcode ≠ .op .jump := by
  simp [Latch.noJump]

theorem Latch.meaning_ne_jump_iff : (l.meaning ji).opcode ≠ .jump ↔ l.noJump = true := by
  rw [Latch.noJump_iff, ne_eq, Latch.meaning_opcode_iff (by decide)]

end

section
variable {s t : State} {S : Stage} {d e1 e2 m1 m2 w : State → Result}

/-- Whether the retirement counts is read in Writeback only. -/
theorem perform_counts (hS : s.stage ≠ .writeback) (c c' : Bool) :
    perform s d e1 e2 m1 m2 w c = perform s d e1 e2 m1 m2 w c' := by
  unfold perform
  split
  · rfl
  · rfl
  · rfl
  · rfl
  · rfl
  · rfl
  · exact absurd ‹_› hS

theorem runOwn_eq_exec_meaning (hS : s.stage ≠ .writeback) : runOwn s = exec (s.own.meaning s.cfg.jumpBase) s := by
  cases hi : s.own.instr? s.cfg.jumpBase with
  | some i => rw [runOwn_of_instr? hi, Latch.meaning_of_instr? hi]
  | none =>
    rw [runOwn, Latch.meaning, hi]
    exact perform_counts hS _ _

/-- An active latch past Decode and before Writeback acts as its meaning. -/
theorem runStage_eq_exec_meaning (hS : S ∈ latePipeline) (hwb : S ≠ .writeback) (hactive : (s.latch S).active = true) :
    runStage S s = exec ((s.latch S).meaning s.cfg.jumpBase) (s.entered S) := by
  rw [runStage_of_active hS hactive, runOwn_eq_exec_meaning (by rwa [State.entered_stage]), State.entered_own,
    State.entered_cfg]

/-- In Writeback an unknown opcode is only counted (log entry 10). -/
theorem runStage_writeback_of_no_instr (hrunning : s.status = .running) (hactive : s.latches.wb.active = true)
    (hnone : s.latches.wb.instr? s.cfg.jumpBase = none) :
    runStage .writeback s = .next { s with stage := .writeback, completed := s.completed + 1 } := by
  have hown : ({ s with stage := .writeback } : State).own.instr? s.cfg.jumpBase = none := hnone
  rw [runStage_of_active (S := .writeback) (by decide) hactive, State.entered_of_ne s (by decide), runOwn, hown]
  exact (perform_writeback rfl).trans (thenRun_of_running _ hrunning)

/-! ### What a stage procedure leaves as it was -/

theorem Frame.endedWith {i : Instr} {u : State} {f : State → State} (h : Frame i S s u) (hf : Frame i S u (f u)) :
    Frame i S s (endedWith f u) := by
  unfold Machine.endedWith
  split
  · exact h.trans hf
  · exact h

theorem exec_entered_frame {i : Instr} (h : exec i (s.entered S) = .next t) : Frame i S (s.entered S) t := by
  have hframe := exec_frame h
  rwa [State.entered_stage] at hframe

theorem runStage_late_frame (hS : S ∈ latePipeline) (hrunning : s.status = .running) (h : runStage S s = .next t) :
    ∃ i, Frame i S (s.entered S) t := by
  cases hactive : (s.latch S).active with
  | false =>
    cases (runStage_of_inactive hS hactive).symm.trans h
    exact ⟨.nop, {}⟩
  | true =>
    cases hi : (s.latch S).instr? s.cfg.jumpBase with
    | some i => exact ⟨i, exec_entered_frame ((runStage_of_instr? hS hactive hi).symm.trans h)⟩
    | none =>
      by_cases hwb : S = .writeback
      · subst hwb
        cases (runStage_writeback_of_no_instr hrunning hactive hi).symm.trans h
        rw [State.entered_of_ne s (by decide)]
        exact ⟨.nop, {}⟩
      · exact ⟨_, exec_entered_frame ((runStage_eq_exec_meaning hS hwb hactive).symm.trans h)⟩

/-- All that Decode can do: skip a busy latch or a bubble, raise on an unknown opcode, or run the instruction. -/
theorem runStage_decode_next (h : runStage .decode s = .next t) :
    ((s.latches.drf.busy = true ∨ s.latches.drf.opcode = .bubble) ∧ t = { s with
      stage := .decode
      latches := { s.latches with drf := { s.latches.drf with stalled := false }, ex1 := bubble false } }) ∨
    (∃ text, t = { s with stage := .decode }.raised .unrecognizedOpcode s.latches.drf.pc (.opcode text)) ∨
    (s.latches.drf.busy = false ∧ ∃ o, s.latches.drf.opcode = .op o ∧
      exec (decodeFields s.cfg.jumpBase o s.latches.drf.rd s.latches.drf.rs1 s.latches.drf.rs2 s.latches.drf.rs3
        s.latches.drf.imm) { s with stage := .decode } = .next t) := by
  by_cases hskip : s.latches.drf.busy = true ∨ s.latches.drf.opcode = .bubble
  · cases (runStage_decode_of_not_decoded hskip).symm.trans h
    exact .inl ⟨hskip, rfl⟩
  · obtain ⟨hbusy, hbubble⟩ := not_or.mp hskip
    rw [Bool.not_eq_true] at hbusy
    cases hop : s.latches.drf.opcode with
    | bubble => exact absurd hop hbubble
    | unknown text =>
      cases (runStage_decode_of_unknown hbusy hop).symm.trans h
      exact .inr (.inl ⟨text, rfl⟩)
    | op o =>
      exact .inr (.inr ⟨hbusy, o, rfl, (runStage_decode_of_instr? hbusy (Latch.instr?_of_op hop)).symm.trans h⟩)

theorem runStage_decode_frame (h : runStage .decode s = .next t) : ∃ i, Frame i .decode (s.entered .decode) t := by
  rw [State.entered_of_ne s (by decide)]
  obtain ⟨-, rfl⟩ | ⟨text, rfl⟩ | ⟨-, o, -, hexec⟩ := runStage_decode_next h
  · exact ⟨.nop, {}⟩
  · exact ⟨.nop, raise_frame (.inl rfl) (raise_eq _ _ _ _)⟩
  · exact ⟨_, exec_frame hexec⟩

/-- Every stage procedure but Fetch writes, from the state it enters, only what some instruction may write in that stage. -/
theorem runStage_frame (hS : S ≠ .fetch) (hrunning : s.status = .running) (h : runStage S s = .next t) :
    ∃ i, Frame i S (s.entered S) t := by
  cases S with
  | fetch => exact absurd rfl hS
  | decode => exact runStage_decode_frame h
  | execute1 | execute2 | memory1 | memory2 | writeback => exact runStage_late_frame (by decide) hrunning h

/-- The latches Fetch can load at the pc: the record there, or a bubble that names the pc (R106, decisions D21, D29). -/
def State.FetchesLatch (s : State) (l : Latch) : Prop :=
  l = { bubble false with pc := s.pc } ∨ ∃ r ∈ s.cfg.code, l = fetchedLatch s.pc r

theorem codeAt?_mem {r : Record} (h : codeAt? s = some r) : r ∈ s.cfg.code := by
  unfold codeAt? at h
  dsimp only at h
  split at h
  · exact List.mem_of_getElem? h
  · cases h

/-- All that Fetch can do: hand on a bubble while held, load a latch, or fault. -/
theorem runStage_fetch_next (h : runStage .fetch s = .next t) :
    (fetchHeld s = true ∧ t = if s.latches.drf.stalled then { s with stage := .fetch }
      else { s with stage := .fetch, latches := { s.latches with drf := bubble false } }) ∨
    (fetchHeld s = false ∧ ∃ l, s.FetchesLatch l ∧ t = s.fetched l) ∨
    (s.cfg.fetchOob = .fault ∧ t = { s with stage := .fetch }.raised .addressOutOfRange s.pc (.code s.pc)) := by
  cases hheld : fetchHeld s with
  | true =>
    cases (runStage_fetch_of_held hheld).symm.trans h
    exact .inl ⟨rfl, rfl⟩
  | false =>
    cases hcode : codeAt? s with
    | some r =>
      cases (runStage_fetch_of_codeAt? hheld hcode).symm.trans h
      exact .inr (.inl ⟨rfl, _, .inr ⟨r, codeAt?_mem hcode, rfl⟩, rfl⟩)
    | none =>
      cases hoob : s.cfg.fetchOob with
      | bubble =>
        cases (runStage_fetch_of_bubble hheld hcode hoob).symm.trans h
        exact .inr (.inl ⟨rfl, _, .inl rfl, rfl⟩)
      | fault =>
        cases (runStage_fetch_of_fault hheld hcode hoob).symm.trans h
        exact .inr (.inr ⟨rfl, rfl⟩)

/-- Fetch writes pc, its latch and the next, the status and the model's own stage. -/
theorem runStage_fetch_frame (h : runStage .fetch s = .next t) :
    ∃ pc f drf st, t = { s with
      stage := .fetch, pc := pc, status := st, latches := { s.latches with f := f, drf := drf } } := by
  obtain ⟨-, rfl⟩ | ⟨-, l, -, rfl⟩ | ⟨-, rfl⟩ := runStage_fetch_next h
  · split
    · exact ⟨s.pc, s.latches.f, s.latches.drf, s.status, rfl⟩
    · exact ⟨s.pc, s.latches.f, bubble false, s.status, rfl⟩
  · unfold State.fetched
    split
    · exact ⟨s.pc, l, s.latches.drf, s.status, rfl⟩
    · exact ⟨_, l, l, s.status, rfl⟩
  · exact ⟨s.pc, s.latches.f, s.latches.drf, _, rfl⟩

/-- What the stage procedure `S` made of `s` is `s` in every field but those that the rules of its stage write. -/
structure StageFrame (S : Stage) (s t : State) : Prop where
  cfg : t.cfg = s.cfg
  clock : t.clock = s.clock
  x : S ≠ .writeback → t.x = s.x
  dmem : S ≠ .memory1 → t.dmem = s.dmem
  completed : S ≠ .writeback → t.completed = s.completed
  programSize : S ≠ .writeback → t.programSize = s.programSize
  brPending : S ≠ .execute2 → S ≠ .memory1 → t.brPending = s.brPending
  brTarget : S ≠ .execute2 → t.brTarget = s.brTarget
  flushedNow : S ≠ .memory1 → t.flushedNow = s.flushedNow
  status : S ∈ [Stage.writeback, .execute2, .execute1] → t.status = s.status
  redirect : S ∈ [Stage.writeback, .memory2, .decode] →
    t.pc = s.pc ∧ t.jmpPending = s.jmpPending ∧ t.jmpAddr = s.jmpAddr

/-- The frame of every stage procedure. -/
theorem runStage_stageFrame (hrunning : s.status = .running) (h : runStage S s = .next t) : StageFrame S s t := by
  by_cases hS : S = .fetch
  · subst hS
    obtain ⟨pc, f, drf, st, rfl⟩ := runStage_fetch_frame h
    exact {
      cfg := rfl
      clock := rfl
      x := fun _ => rfl
      dmem := fun _ => rfl
      completed := fun _ => rfl
      programSize := fun _ => rfl
      brPending := fun _ _ => rfl
      brTarget := fun _ => rfl
      flushedNow := fun _ => rfl
      status := fun hmem => by simp at hmem
      redirect := fun hmem => by simp at hmem }
  · obtain ⟨i, hframe⟩ := runStage_frame hS hrunning h
    exact {
      cfg := by simpa using hframe.cfg
      clock := by simpa using hframe.clock
      x := fun hne => by simpa using hframe.x (by simp [hne])
      dmem := fun hne => by simpa using hframe.dmem (by simp [hne])
      completed := fun hne => by simpa using hframe.completed hne
      programSize := fun hne => by simpa using hframe.programSize (by simp [hne])
      brPending := fun hne hne' => by simpa using hframe.brPending (by simp [hne, hne'])
      brTarget := fun hne => by simpa using hframe.brTarget (by simp [hne])
      flushedNow := fun hne => by simpa using hframe.flushedNow (by simp [hne])
      status := fun hmem => by
        obtain ⟨hdecode, hmemory1, hmemory2⟩ : S ≠ .decode ∧ S ≠ .memory1 ∧ S ≠ .memory2 := by
          refine ⟨?_, ?_, ?_⟩ <;> rintro rfl <;> simp at hmem
        simpa using hframe.status hdecode (by simp [hmemory1]) (by simp [hmemory2])
      redirect := fun hmem => by
        obtain ⟨hexecute1, hexecute2, hmemory1⟩ : S ≠ .execute1 ∧ S ≠ .execute2 ∧ S ≠ .memory1 := by
          refine ⟨?_, ?_, ?_⟩ <;> rintro rfl <;> simp at hmem
        rw [State.entered_of_ne s hexecute2] at hframe
        exact ⟨hframe.pc hS (by simp [hexecute1]) (by simp [hmemory1]),
          hframe.jmpPending (by simp [hexecute1]) (by simp [hmemory1]), hframe.jmpAddr (by simp [hexecute1])⟩ }

end

end Sys2Proof.Machine
end

section
namespace Sys2Proof.Machine

/-! ### The tick as a run of stage procedures (R100, R101) -/

/-- Stage procedures one after the other, each only while the run goes on (R231). -/
def runStages : List Stage → State → Result
  | [], s => .next s
  | S :: rest, s => thenRun (runStage S s) (runStages rest)

/-- The order of R101. -/
def tickOrder : List Stage := [.writeback, .memory2, .memory1, .execute2, .execute1, .decode, .fetch]

/-- The clock's advance at the end of a tick (R100). -/
def advanceClock (s : State) : State := { s with clock := s.clock + 1 }

section
variable {s t u : State} {S : Stage} {Ss Ts : List Stage}

theorem thenRun_next_right (r : Result) : thenRun r .next = r := by
  cases r with
  | next s => exact ite_self _
  | fault e => rfl
  | refused e => rfl

theorem runStages_singleton (S : Stage) (s : State) : runStages [S] s = runStage S s := thenRun_next_right _

/-- Stages that each keep `P` while the run goes on keep it in a row. -/
theorem runStages_induct {P : State → Prop} (hs : s.status = .running) (hP : P s)
    (hstage : ∀ S ∈ Ss, ∀ u v, u.status = .running → P u → runStage S u = .next v → P v) (h : runStages Ss s = .next t) :
    P t := by
  induction Ss generalizing s with
  | nil =>
    cases h
    exact hP
  | cons S rest ih =>
    obtain ⟨u, hu, ⟨hrunning, hrest⟩ | ⟨-, rfl⟩⟩ := thenRun_next h
    · exact ih hrunning (hstage S (by simp) s u hs hP hu) (fun T hT => hstage T (by simp [hT])) hrest
    · exact hstage S (by simp) s u hs hP hu

/-- What each of the stages leaves as it was, all of them leave as it was. -/
theorem runStages_keeps {α : Type} (p : State → α) (hs : s.status = .running)
    (hstage : ∀ S ∈ Ss, ∀ u v, u.status = .running → runStage S u = .next v → p v = p u) (h : runStages Ss s = .next t) :
    p t = p s :=
  runStages_induct (P := fun u => p u = p s) hs rfl (fun S hS u v hu hPu hv => (hstage S hS u v hu hv).trans hPu) h

/-- Stages in a row are the first of them and then the others, unless a fault has stopped the run. -/
theorem runStages_append_next (hs : s.status = .running) (h : runStages (Ss ++ Ts) s = .next t) :
    ∃ u, runStages Ss s = .next u ∧ ((u.status = .running ∧ runStages Ts u = .next t) ∨ (u.status ≠ .running ∧ u = t)) := by
  induction Ss generalizing s with
  | nil => exact ⟨s, rfl, .inl ⟨hs, h⟩⟩
  | cons S rest ih =>
    obtain ⟨v, hv, ⟨hrunning, hrest⟩ | ⟨hstopped, rfl⟩⟩ := thenRun_next h
    · obtain ⟨u, hu, hcases⟩ := ih hrunning hrest
      exact ⟨u, by rw [runStages, hv, thenRun_of_running _ hrunning, hu], hcases⟩
    · exact ⟨v, by rw [runStages, hv, thenRun_of_stopped _ hstopped], .inr ⟨hstopped, rfl⟩⟩

/-- The first stage of a row decides what none of the others writes. -/
theorem runStages_cons_next {α : Type} (p : State → α)
    (hafter : ∀ T ∈ Ts, ∀ u v, u.status = .running → runStage T u = .next v → p v = p u)
    (h : runStages (S :: Ts) s = .next t) : ∃ u, runStage S s = .next u ∧ p t = p u := by
  obtain ⟨u, hu, ⟨hrunning, hrest⟩ | ⟨-, rfl⟩⟩ := thenRun_next h
  · exact ⟨u, hu, runStages_keeps p hrunning hafter hrest⟩
  · exact ⟨u, hu, rfl⟩

theorem endedWith_of_running {f : State → State} (hs : s.status = .running) : endedWith f s = f s := if_pos hs

/-- A tick is its stage procedures in their order, and then the clock. -/
theorem step_eq_runStages (hticks : s.ticks) :
    step s = thenRun (runStages tickOrder { s with flushedNow := false }) fun u => .next (advanceClock u) := by
  rw [theDriverRunsOneTick s hticks.1 |>.2.2 hticks]
  simp only [tickOrder, runStages, thenRun_next_right, thenRun_assoc]
  rfl

/-- The status with which a step that is no tick ends the run, or leaves it ended (R100). -/
def State.stopStatus (s : State) : Status :=
  if s.status = .running then if s.completed = s.programSize then .completed else .budgetExhausted else s.status

/-- A step that is no tick writes the status and nothing else. -/
theorem step_eq_stopped (hticks : ¬ s.ticks) : step s = .next { s with status := s.stopStatus } := by
  unfold State.stopStatus
  by_cases hrunning : s.status = .running
  · obtain ⟨hcompleted, hbudget, -⟩ := theDriverRunsOneTick s hrunning
    rw [if_pos hrunning]
    split
    · exact hcompleted ‹_›
    · rename_i hmore
      have hspent : 0 < s.cfg.cycleBudget ∧ s.cfg.cycleBudget ≤ s.clock := by
        by_contra hleft
        exact hticks ⟨hrunning, hmore, hleft⟩
      exact hbudget hmore hspent.1 hspent.2
  · rw [if_neg hrunning]
    exact endedRunsNeverChange s hrunning

theorem State.stopStatus_cases (s : State) :
    s.stopStatus ≠ .running ∧ s.stopStatus ∈ [s.status, .completed, .budgetExhausted] := by
  unfold State.stopStatus
  split_ifs with hrunning hdone
  · simp
  · simp
  · exact ⟨hrunning, by simp⟩

/-- All that a step can do: nothing but end the run, or leave it ended; or a tick. -/
theorem step_next (h : step s = .next t) :
    (∃ st ≠ .running, st ∈ [s.status, .completed, .budgetExhausted] ∧ t = { s with status := st }) ∨
    (s.ticks ∧ ∃ u, runStages tickOrder { s with flushedNow := false } = .next u ∧ t = endedWith advanceClock u) := by
  by_cases hticks : s.ticks
  · exact .inr ⟨hticks, thenRun_next_end ((step_eq_runStages hticks).symm.trans h)⟩
  · cases (step_eq_stopped hticks).symm.trans h
    obtain ⟨hstopped, hmem⟩ := s.stopStatus_cases
    exact .inl ⟨_, hstopped, hmem, rfl⟩

/-- A step that ends running is a tick all of whose stages ran. -/
theorem step_next_of_running (h : step s = .next t) (ht : t.status = .running) :
    s.ticks ∧ ∃ u, runStages tickOrder { s with flushedNow := false } = .next u ∧ u.status = .running ∧ t = advanceClock u := by
  obtain ⟨st, hst, -, rfl⟩ | ⟨hticks, u, hu, rfl⟩ := step_next h
  · exact absurd ht hst
  · have hrunning : u.status = .running := by
      rwa [endedWith_keeps State.status (f := advanceClock) rfl] at ht
    exact ⟨hticks, u, hu, hrunning, endedWith_of_running hrunning⟩

/-- In a tick the driver runs, only what the stages do and the clock's advance can have happened. -/
theorem step_next_of_ticks (hticks : s.ticks) (h : step s = .next t) :
    ∃ u, runStages tickOrder { s with flushedNow := false } = .next u ∧ t = endedWith advanceClock u :=
  thenRun_next_end ((step_eq_runStages hticks).symm.trans h)

end

/-! ### What a step leaves as it was -/

section
variable {s t : State}

/-- What no stage writes, nor the driver, no step writes. -/
theorem step_keeps {α : Type} (p : State → α) (hstatus : ∀ (s : State) st, p { s with status := st } = p s)
    (hflushed : ∀ (s : State) b, p { s with flushedNow := b } = p s) (hclock : ∀ s, p (advanceClock s) = p s)
    (hstage : ∀ S u v, u.status = .running → runStage S u = .next v → p v = p u) (h : step s = .next t) : p t = p s := by
  obtain ⟨st, -, -, rfl⟩ | ⟨hticks, u, hu, rfl⟩ := step_next h
  · exact hstatus s st
  · rw [endedWith_keeps p (hclock u), runStages_keeps p (by exact hticks.1) (fun S _ => hstage S) hu]
    exact hflushed s false

end

/-- Settles O52: no stage procedure writes the parameters. -/
theorem stepsNeverWriteTheParameters : Obligations.StepsNeverWriteTheParameters :=
  fun _ _ => step_keeps State.cfg (fun _ _ => rfl) (fun _ _ => rfl) (fun _ => rfl)
    fun _ _ _ hrunning hv => (runStage_stageFrame hrunning hv).cfg

/-- Settles O35: no stage writes the clock; the end of the tick does, when the run goes on. -/
theorem clockCountsCompletedTicks : Obligations.ClockCountsCompletedTicks := by
  intro s t _ h
  obtain ⟨st, hst, -, rfl⟩ | ⟨hticks, u, hu, rfl⟩ := step_next h
  · exact ⟨fun hrunning => absurd hrunning hst, fun _ => rfl⟩
  · have hclock : u.clock = s.clock :=
      runStages_keeps (s := { s with flushedNow := false }) State.clock hticks.1 (fun _ _ _ _ hrunning hv =>
        (runStage_stageFrame hrunning hv).clock) hu
    rw [endedWith_keeps State.status (f := advanceClock) rfl, endedWith]
    split
    · exact ⟨fun _ => congrArg (· + 1) hclock, fun hended => absurd ‹_› hended⟩
    · exact ⟨fun hrunning => absurd hrunning ‹_›, fun _ => hclock⟩

/-! ### Retirement over a tick (R130, R134, R214) -/

section
variable {s t : State}

theorem destField?_decodeFields (ji : Field) (o : Opcode) (rd rs1 rs2 rs3 imm : Int) :
    (decodeFields ji o rd rs1 rs2 rs3 imm).destField? = if o.isProducer then some rd else none := by
  cases o with
  | jump => cases ji <;> rfl
  | _ => rfl

/-- The destination of a latch's instruction is the latch's `rd`, for a producer. -/
theorem Latch.destField?_of_instr? {ji : Field} {l : Latch} {i : Instr} (hi : l.instr? ji = some i) :
    i.destField? = if i.opcode.isProducer then some l.rd else none := by
  have heq := Option.some.inj ((Latch.instr?_of_op (Latch.opcode_of_instr? hi)).symm.trans hi)
  exact (congrArg Instr.destField? heq).symm.trans (destField?_decodeFields ..)

theorem Latch.producer_of_destField? {ji : Field} {l : Latch} {i : Instr} {v : Int} (hi : l.instr? ji = some i)
    (hdest : i.destField? = some v) : i.opcode.isProducer = true ∧ l.rd = v := by
  rw [Latch.destField?_of_instr? hi] at hdest
  split at hdest
  · exact ⟨‹_›, Option.some.inj hdest⟩
  · cases hdest

/-- All that Writeback can do: nothing on an inactive latch, a producer's commit, or to retire what is no producer. -/
theorem runStage_writeback_next (hrunning : s.status = .running) (h : runStage .writeback s = .next t) :
    (s.latches.wb.active = false ∧ t = { s with stage := .writeback }) ∨
    (∃ (o : Opcode) (r : Nat) (z : Bool), s.latches.wb.active = true ∧ s.latches.wb.opcode = .op o ∧ o.isProducer = true ∧
      s.latches.wb.rd = (r : Int) ∧ r < s.cfg.nreg ∧ t = State.committed { s with stage := .writeback } r z) ∨
    (s.latches.wb.active = true ∧ ∃ z b, b ≤ s.bstall ∧ t = { s with
      stage := .writeback, z := z, bstall := b
      completed := s.completed + (if s.latches.wb.opcode = .op .nop ∧ s.cfg.nopCounts = false then 0 else 1)
      programSize := if s.latches.wb.opcode = .op .halt then s.completed + 1 else s.programSize }) := by
  cases hactive : s.latches.wb.active with
  | false =>
    cases (runStage_of_inactive (S := .writeback) (by decide) hactive).symm.trans h
    exact .inl ⟨rfl, rfl⟩
  | true =>
    refine .inr ?_
    cases hi : s.latches.wb.instr? s.cfg.jumpBase with
    | none =>
      have hop (o : Opcode) : s.latches.wb.opcode ≠ .op o := by
        intro ho
        rw [Latch.instr?_of_op ho] at hi
        cases hi
      cases (runStage_writeback_of_no_instr hrunning hactive hi).symm.trans h
      exact .inr ⟨rfl, s.z, s.bstall, le_rfl, by simp [hop]⟩
    | some i =>
      have hop : s.latches.wb.opcode = .op i.opcode := Latch.opcode_of_instr? hi
      have hruns : ({ s with stage := .writeback } : State).runs .writeback := ⟨rfl, hrunning⟩
      have hexec : exec i { s with stage := .writeback } = .next t :=
        (runStage_of_instr? (S := .writeback) (by decide) hactive hi).symm.trans h
      cases hdest : i.destField? with
      | some v =>
        obtain ⟨r, z, hdest', hr, rfl⟩ | ⟨hnone, -⟩ := exec_writeback_next hruns hexec
        · obtain ⟨hproducer, hrd⟩ := Latch.producer_of_destField? hi hdest'
          exact .inl ⟨i.opcode, r, z, rfl, hop, hproducer, hrd, hr, rfl⟩
        · exact nomatch hdest.symm.trans hnone
      | none =>
        right
        cases (exec_writeback_of_destField?_none hruns hdest).symm.trans hexec
        rw [hop]
        cases i with
        | bz _ | bnz _ => exact ⟨rfl, false, 0, Nat.zero_le _, by simp [Instr.isBranch, Instr.opcode]⟩
        | store _ _ _ | str _ _ _ | jump _ _ | halt => exact ⟨rfl, s.z, s.bstall, le_rfl, by simp [Instr.isBranch, Instr.opcode]⟩
        | nop =>
          refine ⟨rfl, s.z, s.bstall, le_rfl, ?_⟩
          cases hcounts : s.cfg.nopCounts <;> simp [Instr.isBranch, Instr.opcode]
        | _ => cases hdest

/-- The counters after Writeback, whatever is in the latch. -/
theorem runStage_writeback_counts (hrunning : s.status = .running) (h : runStage .writeback s = .next t) :
    t.completed = s.completed +
      (if s.latches.wb.active = true ∧ ¬ (s.latches.wb.opcode = .op .nop ∧ s.cfg.nopCounts = false) then 1 else 0) ∧
    t.programSize =
      (if s.latches.wb.active = true ∧ s.latches.wb.opcode = .op .halt then s.completed + 1 else s.programSize) := by
  obtain ⟨hactive, rfl⟩ | ⟨o, r, z, hactive, hop, hproducer, -, -, rfl⟩ | ⟨hactive, z, b, -, rfl⟩ :=
    runStage_writeback_next hrunning h
  · simp [hactive]
  · have hnop : o ≠ .nop := by
      rintro rfl
      cases hproducer
    have hhalt : o ≠ .halt := by
      rintro rfl
      cases hproducer
    simp [hactive, hop, hnop, hhalt, State.committed]
  · simp only [hactive, true_and, ite_not]

end

/-- Settles O37: Writeback is the first stage of the tick, and no other writes a counter. -/
theorem retirementCountsPerTick : Obligations.RetirementCountsPerTick := by
  intro s t hticks h
  obtain ⟨u, hu, rfl⟩ := step_next_of_ticks hticks h
  obtain ⟨v, hv, hkept⟩ := runStages_cons_next (fun u => (u.completed, u.programSize))
    (fun T hT u v hrunning hv => by
      have hframe := runStage_stageFrame hrunning hv
      have hne : T ≠ .writeback := by
        rintro rfl
        simp at hT
      rw [hframe.completed hne, hframe.programSize hne]) hu
  obtain ⟨hcompleted, hsize⟩ := Prod.mk.inj hkept
  obtain ⟨hcount, htruncate⟩ := runStage_writeback_counts (by exact hticks.1) hv
  rw [endedWith_keeps State.completed (f := advanceClock) rfl, endedWith_keeps State.programSize (f := advanceClock) rfl,
    hcompleted, hsize]
  exact ⟨hcount, htruncate⟩

/-- Settles O38: Writeback is the first stage of the tick, and no other writes a register. -/
theorem stepWritesRegistersOnlyByRetirement : Obligations.StepWritesRegistersOnlyByRetirement := by
  intro s t h
  obtain ⟨st, -, -, rfl⟩ | ⟨hticks, u, hu, rfl⟩ := step_next h
  · exact .inl rfl
  · obtain ⟨v, hv, hx⟩ := runStages_cons_next State.x
      (fun T hT u v hrunning hv => (runStage_stageFrame hrunning hv).x (by rintro rfl; simp at hT)) hu
    rw [endedWith_keeps State.x (f := advanceClock) rfl, hx]
    obtain ⟨-, rfl⟩ | ⟨o, r, z, hactive, hop, hproducer, hrd, hr, rfl⟩ | ⟨-, z, b, -, rfl⟩ :=
      runStage_writeback_next (by exact hticks.1) hv
    · exact .inl rfl
    · exact .inr ⟨o, r, hr, hactive, hop, hproducer, hrd, rfl⟩
    · exact .inl rfl

/-! ### All that each stage procedure from Memory2 to Execute1 can do, while the run goes on -/

section
variable {s t : State}

theorem runStage_memory2_next (hrunning : s.status = .running) (h : runStage .memory2 s = .next t) :
    (s.latches.mem2.active = false ∧ t = { s with
      stage := .memory2, latches := { s.latches with wb := bubble s.latches.mem2.stalled } }) ∨
    (dataIndex? s.cfg s.latches.mem2.memAddress = none ∧ t = State.raised { s with stage := .memory2 } .addressOutOfRange
      s.latches.mem2.pc (.data s.latches.mem2.memAddress)) ∨
    (s.latches.mem2.active = true ∧ ∃ l, t = State.advanced { s with stage := .memory2 } .memory2 l ∧
      (l = s.latches.mem2 ∨ ∃ k, l = { s.latches.mem2 with buffer := Memory.read s.dmem k })) := by
  cases hactive : s.latches.mem2.active with
  | false =>
    cases ((inactiveLatchesForwardBubbles s).2.2.2.2.1 hactive).symm.trans h
    exact .inl ⟨rfl, rfl⟩
  | true =>
    rw [runStage_eq_exec_meaning (S := .memory2) (by decide) (by decide) hactive, State.entered_of_ne s (by decide)] at h
    obtain hraised | hmoved := exec_memory2_next (s := { s with stage := .memory2 }) ⟨rfl, hrunning⟩ hactive h
    · exact .inr (.inl hraised)
    · exact .inr (.inr ⟨rfl, hmoved⟩)

theorem runStage_memory1_next (hrunning : s.status = .running) (h : runStage .memory1 s = .next t) :
    (s.latches.mem1.active = false ∧ t = { s with
      stage := .memory1, latches := { s.latches with mem2 := bubble s.latches.mem1.stalled } }) ∨
    (dataIndex? s.cfg s.latches.mem1.memAddress = none ∧ t = State.raised { s with stage := .memory1 } .addressOutOfRange
      s.latches.mem1.pc (.data s.latches.mem1.memAddress)) ∨
    (s.latches.mem1.active = true ∧ ∃ u, t = State.advanced u .memory1 s.latches.mem1 ∧
      ((¬ ((s.latches.mem1.opcode = .op .bz ∨ s.latches.mem1.opcode = .op .bnz) ∧ s.brPending = true) ∧
          u = { s with stage := .memory1 }) ∨
        (((s.latches.mem1.opcode = .op .bz ∨ s.latches.mem1.opcode = .op .bnz) ∧ s.brPending = true) ∧
          u = branchCommit { s with stage := .memory1 }) ∨
        ((s.latches.mem1.opcode = .op .store ∨ s.latches.mem1.opcode = .op .str) ∧
          ∃ k, dataIndex? s.cfg s.latches.mem1.memAddress = some k ∧
            u = { s with stage := .memory1, dmem := Memory.write s.dmem k s.latches.mem1.rs1Value }))) := by
  cases hactive : s.latches.mem1.active with
  | false =>
    cases ((inactiveLatchesForwardBubbles s).2.2.2.1 hactive).symm.trans h
    exact .inl ⟨rfl, rfl⟩
  | true =>
    rw [runStage_eq_exec_meaning (S := .memory1) (by decide) (by decide) hactive, State.entered_of_ne s (by decide)] at h
    obtain hraised | ⟨u, hmoved, hu⟩ := exec_memory1_next (s := { s with stage := .memory1 }) ⟨rfl, hrunning⟩ hactive h
    · exact .inr (.inl hraised)
    · rw [Latch.meaning_isBranch_iff, Latch.meaning_isStore_iff] at hu
      exact .inr (.inr ⟨rfl, u, hmoved, hu⟩)

theorem forward_of_execute2 (hstage : s.stage = .execute2) :
    forward s = { s with latches := { s.latches with mem1 := s.latches.ex2.forwarded } } := by
  have hforward : forward s = s.setLatch .memory1 (s.latch .execute2).forwarded := by
    unfold forward
    rw [hstage]
  exact hforward

theorem State.entered_target (s : State) (S : Stage) (base imm : Int) : (s.entered S).target base imm = s.target base imm := by
  rw [State.target, State.entered_cfg]
  rfl

theorem Latch.instr?_eq_jump (l : Latch) (ji : Field) (hjump : l.noJump = false) :
    ∃ base imm, l.instr? ji = some (.jump base imm) := by
  have hop : l.opcode = .op .jump := by
    by_contra hne
    simp [Latch.noJump_iff.mpr hne] at hjump
  rw [Latch.instr?_of_op hop]
  cases ji with
  | rd | rs1 | rs2 | rs3 => exact ⟨_, _, rfl⟩

theorem runStage_execute2_next (hrunning : s.status = .running) (h : runStage .execute2 s = .next t) :
    (s.latches.ex2.active = false ∧ t = { s.entered .execute2 with
      latches := { s.latches with mem1 := bubble s.latches.ex2.stalled } }) ∨
    (s.latches.ex2.active = true ∧ s.latches.ex2.noJump = false ∧ t = { s.entered .execute2 with
      latches := { s.latches with ex2 := { s.latches.ex2 with stalled := true }, mem1 := bubble true } }) ∨
    (s.latches.ex2.active = true ∧ s.latches.ex2.noJump = true ∧ ∃ u l, t = State.advanced u .execute2 l ∧
      Latch.Computed s.cfg.xlen (s.latches.ex2.meaning s.cfg.jumpBase) s.latches.ex2 l ∧
      (u = s.entered .execute2 ∨
        ∃ base imm, u = { s.entered .execute2 with brTarget := s.target base imm, brPending := true })) := by
  have hruns : (s.entered .execute2).runs .execute2 := ⟨s.entered_stage _, (s.entered_status _).trans hrunning⟩
  have hlatches := s.entered_latches .execute2
  cases hactive : s.latches.ex2.active with
  | false =>
    cases (runStage_of_inactive (S := .execute2) (by decide) hactive).symm.trans h
    exact .inl ⟨rfl, by rw [forward_of_execute2 hruns.1, hlatches, Latch.forwarded_of_inactive hactive]⟩
  | true =>
    refine .inr ?_
    have hactive' : (s.entered .execute2).latches.ex2.active = true := by rwa [hlatches]
    rw [runStage_eq_exec_meaning (S := .execute2) (by decide) (by decide) hactive] at h
    cases hjump : s.latches.ex2.noJump with
    | false =>
      obtain ⟨base, imm, hinstr⟩ := s.latches.ex2.instr?_eq_jump s.cfg.jumpBase hjump
      rw [Latch.meaning_of_instr? (l := s.latch .execute2) hinstr, jump_exec_execute2 base imm hruns, hlatches] at h
      cases h
      exact .inl ⟨rfl, rfl, rfl⟩
    | true =>
      obtain ⟨u, l, hmoved, hcomputed, hu⟩ := exec_execute2_next hruns hactive' (Latch.meaning_ne_jump_iff.mpr hjump) h
      rw [hlatches, State.entered_cfg] at hcomputed
      refine .inr ⟨rfl, rfl, u, l, hmoved, hcomputed, hu.imp_right ?_⟩
      rintro ⟨base, imm, rfl⟩
      exact ⟨base, imm, by rw [State.entered_target]⟩

theorem runStage_execute1_next (hrunning : s.status = .running) (h : runStage .execute1 s = .next t) :
    (s.latches.ex1.active = false ∧ t = { s with
      stage := .execute1, latches := { s.latches with ex2 := bubble s.latches.ex1.stalled } }) ∨
    (s.latches.ex1.active = true ∧ ∃ u l, t = State.advanced u .execute1 l ∧
      Latch.Computed s.cfg.xlen (s.latches.ex1.meaning s.cfg.jumpBase) s.latches.ex1 l ∧
      ((s.latches.ex1.noJump = true ∧ ∃ valid, valid.length = s.valid.length ∧
          u = { s with stage := .execute1, valid := valid }) ∨
        (s.latches.ex1.noJump = false ∧ ∃ imm,
          u = State.redirected { s with stage := .execute1 } (s.target s.latches.ex1.rs1Value imm)))) := by
  cases hactive : s.latches.ex1.active with
  | false =>
    cases ((inactiveLatchesForwardBubbles s).1 hactive).symm.trans h
    exact .inl ⟨rfl, rfl⟩
  | true =>
    rw [runStage_eq_exec_meaning (S := .execute1) (by decide) (by decide) hactive, State.entered_of_ne s (by decide)] at h
    obtain ⟨u, l, hmoved, hcomputed, hu⟩ := exec_execute1_next (s := { s with stage := .execute1 }) ⟨rfl, hrunning⟩ hactive h
    refine .inr ⟨rfl, u, l, hmoved, hcomputed, ?_⟩
    obtain ⟨hjump, rfl⟩ | ⟨hjump, r, rfl⟩ | ⟨hjump, imm, rfl⟩ := hu
    · exact .inl ⟨Latch.meaning_ne_jump_iff.mp hjump, s.valid, rfl, rfl⟩
    · exact .inl ⟨Latch.meaning_ne_jump_iff.mp hjump, _, List.length_set, rfl⟩
    · have hnoJump := Latch.meaning_ne_jump_iff.not.mp (not_not.mpr hjump)
      exact .inr ⟨Bool.eq_false_of_not_eq_true hnoJump, imm, rfl⟩

/-- Decode of an instruction that is neither skipped nor refused: the raise for a field out of range, or the update of its kind and
Decode's end. -/
theorem runStage_decode_next_of_running (hrunning : s.status = .running) (h : runStage .decode s = .next t) :
    ((s.latches.drf.busy = true ∨ s.latches.drf.opcode = .bubble) ∧ t = { s with
      stage := .decode
      latches := { s.latches with drf := { s.latches.drf with stalled := false }, ex1 := bubble false } }) ∨
    (∃ text, t = State.raised { s with stage := .decode } .unrecognizedOpcode s.latches.drf.pc (.opcode text)) ∨
    (∃ f v, inRange s.cfg.nreg v = false ∧
      t = State.raised { s with stage := .decode } .addressOutOfRange s.latches.drf.pc (.register f v)) ∨
    (s.latches.drf.busy = false ∧ ∃ o i, s.latches.drf.opcode = .op o ∧ i.opcode = o ∧
      s.latches.drf.instr? s.cfg.jumpBase = some i ∧ i.fieldsInRange s.cfg = true ∧
      t = issue (decodeUpdate i { s with stage := .decode })) := by
  obtain hskip | hunknown | ⟨hbusy, o, hop, hexec⟩ := runStage_decode_next h
  · exact .inl hskip
  · exact .inr (.inl hunknown)
  · refine .inr (.inr ?_)
    obtain ⟨hfields, rfl⟩ | hraised := exec_decode_next (s := { s with stage := .decode }) rfl hexec
    · refine .inr ⟨hbusy, o, _, hop, decodeFields_opcode .., Latch.instr?_of_op hop, hfields, ?_⟩
      exact endedWith_of_running ((decodeUpdate_status _ _).trans (by exact hrunning))
    · exact .inl hraised

/-- A stage procedure leaves the latches past the one it hands to as they were. -/
structure OlderLatches (S : Stage) (s t : State) : Prop where
  wb : S ≠ .memory2 → t.latches.wb = s.latches.wb
  mem2 : S ≠ .memory1 → S ≠ .memory2 → t.latches.mem2 = s.latches.mem2
  mem1 : S ≠ .execute2 → S ≠ .memory1 → t.latches.mem1 = s.latches.mem1
  ex2 : S ∉ [Stage.execute1, .execute2, .memory1] → t.latches.ex2 = s.latches.ex2

theorem OlderLatches.of_eq {S : Stage} (hwb : t.latches.wb = s.latches.wb) (hmem2 : t.latches.mem2 = s.latches.mem2)
    (hmem1 : t.latches.mem1 = s.latches.mem1) (hex2 : t.latches.ex2 = s.latches.ex2) : OlderLatches S s t :=
  ⟨fun _ => hwb, fun _ _ => hmem2, fun _ _ => hmem1, fun _ => hex2⟩

theorem runStage_writeback_latches (hrunning : s.status = .running) (h : runStage .writeback s = .next t) :
    t.latches = s.latches := by
  obtain ⟨-, rfl⟩ | ⟨_, _, _, -, -, -, -, -, rfl⟩ | ⟨-, _, _, -, rfl⟩ := runStage_writeback_next hrunning h
  · rfl
  · rfl
  · rfl

theorem runStage_olderLatches {S : Stage} (hrunning : s.status = .running) (h : runStage S s = .next t) :
    OlderLatches S s t := by
  cases S with
  | writeback =>
    have hlatches := runStage_writeback_latches hrunning h
    exact .of_eq (by rw [hlatches]) (by rw [hlatches]) (by rw [hlatches]) (by rw [hlatches])
  | memory2 =>
    refine ⟨fun hne => absurd rfl hne, fun _ hne => absurd rfl hne, fun _ _ => ?_, fun _ => ?_⟩
    all_goals obtain ⟨-, rfl⟩ | ⟨-, rfl⟩ | ⟨-, l, rfl, -⟩ := runStage_memory2_next hrunning h <;> rfl
  | memory1 =>
    refine ⟨fun _ => ?_, fun hne => absurd rfl hne, fun _ hne => absurd rfl hne, fun hmem => by simp at hmem⟩
    obtain ⟨-, rfl⟩ | ⟨-, rfl⟩ | ⟨-, u, rfl, ⟨-, rfl⟩ | ⟨-, rfl⟩ | ⟨-, k, -, rfl⟩⟩ := runStage_memory1_next hrunning h <;> rfl
  | execute2 =>
    refine ⟨fun _ => ?_, fun _ _ => ?_, fun hne => absurd rfl hne, fun hmem => by simp at hmem⟩
    all_goals
      obtain ⟨-, rfl⟩ | ⟨-, -, rfl⟩ | ⟨-, -, u, l, rfl, -, rfl | ⟨base, imm, rfl⟩⟩ := runStage_execute2_next hrunning h <;>
        simp [State.advanced]
  | execute1 =>
    refine ⟨fun _ => ?_, fun _ _ => ?_, fun _ _ => ?_, fun hmem => by simp at hmem⟩
    all_goals
      obtain ⟨-, rfl⟩ | ⟨-, u, l, rfl, -, ⟨-, valid, -, rfl⟩ | ⟨-, imm, rfl⟩⟩ := runStage_execute1_next hrunning h <;> rfl
  | decode =>
    obtain ⟨-, rfl⟩ | ⟨text, rfl⟩ | ⟨-, o, -, hexec⟩ := runStage_decode_next h
    · exact .of_eq rfl rfl rfl rfl
    · exact .of_eq rfl rfl rfl rfl
    · obtain ⟨-, -, -, -, -, hex2, -, hmem1, hmem2, hwb⟩ := instructionsWriteOnlyTheirLatches _ _ _ hexec
      exact .of_eq (hwb (by simp)) (hmem2 (by simp) (by simp)) (hmem1 (by simp) (by simp)) (hex2 (by simp) (by simp) (by simp))
  | fetch =>
    obtain ⟨pc, f, drf, st, rfl⟩ := runStage_fetch_frame h
    exact .of_eq rfl rfl rfl rfl

end

/-! ### Data memory over a tick (R64, R65, R69) -/

section
variable {s t : State}

/-- The two stages before Memory1 leave memory, `L[MEM1]` and the parameters alone. -/
theorem runStages_before_memory1 (hrunning : s.status = .running) (h : runStages [.writeback, .memory2] s = .next t) :
    t.dmem = s.dmem ∧ t.latches.mem1 = s.latches.mem1 ∧ t.cfg = s.cfg := by
  refine runStages_induct (P := fun u => u.dmem = s.dmem ∧ u.latches.mem1 = s.latches.mem1 ∧ u.cfg = s.cfg) hrunning
    ⟨rfl, rfl, rfl⟩ (fun S hS u v hu ⟨hdmem, hmem1, hcfg⟩ hv => ?_) h
  have hframe := runStage_stageFrame hu hv
  obtain ⟨hne, hne'⟩ : S ≠ .memory1 ∧ S ≠ .execute2 := by
    constructor <;> rintro rfl <;> simp at hS
  exact ⟨(hframe.dmem hne).trans hdmem, ((runStage_olderLatches hu hv).mem1 hne' hne).trans hmem1, hframe.cfg.trans hcfg⟩

/-- Memory1 changes no cell but the one an active store addresses. -/
theorem runStage_memory1_changes {j : Nat} (hrunning : s.status = .running) (h : runStage .memory1 s = .next t)
    (hchanged : Memory.read t.dmem j ≠ Memory.read s.dmem j) :
    s.latches.mem1.active = true ∧ (s.latches.mem1.opcode = .op .store ∨ s.latches.mem1.opcode = .op .str) ∧
      dataIndex? s.cfg s.latches.mem1.memAddress = some j := by
  obtain ⟨-, rfl⟩ | ⟨-, rfl⟩ | ⟨hactive, u, rfl, ⟨-, rfl⟩ | ⟨-, rfl⟩ | ⟨hstore, k, hk, rfl⟩⟩ := runStage_memory1_next hrunning h
  · exact absurd rfl hchanged
  · exact absurd rfl hchanged
  · exact absurd rfl hchanged
  · exact absurd rfl hchanged
  · obtain rfl : j = k := by
      by_contra hne
      exact hchanged (Memory.read_write_ne _ _ hne)
    exact ⟨hactive, hstore, hk⟩

end

/-- Settles O39: of the stages of a tick only Memory1 writes memory, and it finds memory and its latch as the tick began. -/
theorem stepWritesMemoryOnlyFromMemory1 : Obligations.StepWritesMemoryOnlyFromMemory1 := by
  intro s t j h hchanged
  obtain ⟨st, -, -, rfl⟩ | ⟨hticks, w, hw, rfl⟩ := step_next h
  · exact absurd rfl hchanged
  · rw [endedWith_keeps State.dmem (f := advanceClock) rfl] at hchanged
    obtain ⟨u, hu, hrest⟩ := runStages_append_next (Ss := [.writeback, .memory2]) (by exact hticks.1) hw
    obtain ⟨hdmem, hmem1, hcfg⟩ := runStages_before_memory1 (by exact hticks.1) hu
    obtain ⟨hrunning, hrest⟩ | ⟨-, rfl⟩ := hrest
    · obtain ⟨v, hv, hw⟩ := runStages_cons_next State.dmem
        (fun T hT u v hu hv => (runStage_stageFrame hu hv).dmem (by rintro rfl; simp at hT)) hrest
      have hstore := runStage_memory1_changes hrunning hv (by rwa [← hw, hdmem])
      rwa [hmem1, hcfg] at hstore
    · exact absurd (by rw [hdmem]) hchanged

/-- An active load in Memory2 whose address names a cell hands on the cell's word. -/
theorem runStage_memory2_of_load {s : State} {c : Nat} (hrunning : s.status = .running) (hactive : s.latches.mem2.active = true)
    (hload : s.latches.mem2.opcode = .op .load ∨ s.latches.mem2.opcode = .op .ldr)
    (hcell : dataIndex? s.cfg s.latches.mem2.memAddress = some c) :
    runStage .memory2 s = .next (State.advanced { s with stage := .memory2 } .memory2
      { s.latches.mem2 with buffer := Memory.read s.dmem c }) := by
  have hisLoad : (s.latches.mem2.meaning s.cfg.jumpBase).isLoad = true := by
    simpa [Instr.isLoad, Latch.meaning_opcode_iff] using hload
  rw [runStage_eq_exec_meaning (S := .memory2) (by decide) (by decide) hactive, State.entered_of_ne s (by decide)]
  exact exec_memory2_of_isLoad hisLoad ⟨rfl, hrunning⟩ hactive hcell

/-- Settles O40: Memory2 runs after Writeback only, which leaves memory and `L[MEM2]` alone, and no later stage writes `L[WB]`. -/
theorem loadReadsBeforeTheYoungerStore : Obligations.LoadReadsBeforeTheYoungerStore := by
  intro s t c hticks h hactive hload hcell
  obtain ⟨w, hw, rfl⟩ := step_next_of_ticks hticks h
  rw [endedWith_keeps (fun u => u.latches.wb) (f := advanceClock) rfl]
  obtain ⟨u, hu, hrest⟩ := runStages_append_next (Ss := [.writeback]) (by exact hticks.1) hw
  rw [runStages_singleton] at hu
  have hlatches := runStage_writeback_latches (by exact hticks.1) hu
  have hframe := runStage_stageFrame (by exact hticks.1) hu
  have hrunning : u.status = .running := (hframe.status (by simp)).trans hticks.1
  obtain ⟨-, hrest⟩ | ⟨hstopped, -⟩ := hrest
  · obtain ⟨v, hv, hwb⟩ := runStages_cons_next (fun u => u.latches.wb)
      (fun T hT u v hu hv => (runStage_olderLatches hu hv).wb (by rintro rfl; simp at hT)) hrest
    rw [runStage_memory2_of_load hrunning (by rwa [hlatches]) (by rwa [hlatches]) (by rwa [hlatches, hframe.cfg])] at hv
    cases hv
    rw [hwb, hlatches, hframe.dmem (by decide)]
    rfl
  · exact absurd hrunning hstopped

end Sys2Proof.Machine
end

section
namespace Sys2Proof.Machine

/-! ### The faults of a step (R230, R234) -/

/-- The rows of R230's table: what a fault of stage `S` at `pc` can be. -/
def inFaultTable (c : Config) (kind : FaultKind) (S : Stage) (pc : Int) (info : FaultInfo) : Prop :=
  (kind = .unrecognizedOpcode ∧ S = .decode ∧ ∃ text, info = .opcode text) ∨
  (kind = .addressOutOfRange ∧ S = .decode ∧ ∃ f v, info = .register f v ∧ inRange c.nreg v = false) ∨
  (kind = .addressOutOfRange ∧ (S = .memory1 ∨ S = .memory2) ∧ ∃ a, info = .data a ∧ ¬ (0 ≤ a ∧ a < (c.dmemSize : Int))) ∨
  (kind = .addressOutOfRange ∧ S = .fetch ∧ info = .code pc ∧ c.fetchOob = .fault)

/-- The run goes on, or has ended in a fault of the table. -/
def runningOrInTable (c : Config) (st : Status) : Prop :=
  st = .running ∨ ∃ kind S pc info, st = .faulted kind S pc info ∧ inFaultTable c kind S pc info

section
variable {s t : State} {S : Stage}

theorem runningOrInTable.raised {kind : FaultKind} {pc : Int} {info : FaultInfo} (h : inFaultTable s.cfg kind S pc info) :
    runningOrInTable s.cfg (State.raised { s with stage := S } kind pc info).status :=
  .inr ⟨kind, S, pc, info, rfl, h⟩

/-- Every stage procedure raises only what the table has for it. -/
theorem runStage_runningOrInTable (hrunning : s.status = .running) (h : runStage S s = .next t) :
    runningOrInTable s.cfg t.status := by
  have hframe := runStage_stageFrame hrunning h
  cases S with
  | writeback | execute2 | execute1 => exact .inl ((hframe.status (by simp)).trans hrunning)
  | memory2 =>
    obtain ⟨-, rfl⟩ | ⟨hcell, rfl⟩ | ⟨-, l, rfl, -⟩ := runStage_memory2_next hrunning h
    · exact .inl hrunning
    · exact .raised (.inr (.inr (.inl ⟨rfl, .inr rfl, _, rfl, dataIndex?_eq_none.mp hcell⟩)))
    · exact .inl hrunning
  | memory1 =>
    obtain ⟨-, rfl⟩ | ⟨hcell, rfl⟩ | ⟨-, u, rfl, ⟨-, rfl⟩ | ⟨-, rfl⟩ | ⟨-, k, -, rfl⟩⟩ := runStage_memory1_next hrunning h
    · exact .inl hrunning
    · exact .raised (.inr (.inr (.inl ⟨rfl, .inl rfl, _, rfl, dataIndex?_eq_none.mp hcell⟩)))
    · exact .inl hrunning
    · exact .inl hrunning
    · exact .inl hrunning
  | decode =>
    obtain ⟨-, rfl⟩ | ⟨text, rfl⟩ | ⟨f, v, hv, rfl⟩ | ⟨-, o, i, -, -, -, -, rfl⟩ := runStage_decode_next_of_running hrunning h
    · exact .inl hrunning
    · exact .raised (.inl ⟨rfl, rfl, text, rfl⟩)
    · exact .raised (.inr (.inl ⟨rfl, rfl, f, v, rfl, hv⟩))
    · exact .inl ((issue_decodeUpdate_status i _).trans hrunning)
  | fetch =>
    obtain ⟨-, rfl⟩ | ⟨-, l, -, rfl⟩ | ⟨hoob, rfl⟩ := runStage_fetch_next h
    · split
      · exact .inl hrunning
      · exact .inl hrunning
    · exact .inl ((s.fetched_status l).trans hrunning)
    · exact .raised (.inr (.inr (.inr ⟨rfl, rfl, rfl, hoob⟩)))

end

/-- Settles O36: every stage of a tick raises only what the table has for it. -/
theorem faultsAreThoseOfTheTable : Obligations.FaultsAreThoseOfTheTable := by
  intro s t kind S pc info hrunning h hfault
  obtain ⟨st, hst, hmem, rfl⟩ | ⟨hticks, u, hu, rfl⟩ := step_next h
  · cases hfault
    simp [hrunning] at hmem
  · have htable := (runStages_induct (s := { s with flushedNow := false })
      (P := fun u => u.cfg = s.cfg ∧ runningOrInTable s.cfg u.status) hrunning ⟨rfl, .inl hrunning⟩
      (fun T _ u v hu ⟨hcfg, _⟩ hv =>
        ⟨(runStage_stageFrame hu hv).cfg.trans hcfg, hcfg ▸ runStage_runningOrInTable hu hv⟩) hu).2
    rw [endedWith_keeps State.status (f := advanceClock) rfl] at hfault
    obtain hgoes | ⟨kind', S', pc', info', hfault', hrow⟩ := htable
    · simp [hgoes] at hfault
    · cases hfault.symm.trans hfault'
      exact hrow

/-! ### A tick in which every stage runs (R101) -/

/-- The stage procedure `S` takes `s` to `t`, and the run goes on. -/
structure Ran (S : Stage) (s t : State) : Prop where
  starts : s.status = .running
  runs : runStage S s = .next t
  ends : t.status = .running

/-- The states of a tick that ends running, from `s` on: after Writeback, Memory2, Memory1, Execute2, Execute1, Decode and Fetch. -/
structure FullTick (s wb m2 m1 e2 e1 d f : State) : Prop where
  writeback : Ran .writeback s wb
  memory2 : Ran .memory2 wb m2
  memory1 : Ran .memory1 m2 m1
  execute2 : Ran .execute2 m1 e2
  execute1 : Ran .execute1 e2 e1
  decode : Ran .decode e1 d
  fetch : Ran .fetch d f

section
variable {s t wb m2 m1 e2 e1 d f : State} {S : Stage} {Ss : List Stage}

theorem runStages_cons_running (hs : s.status = .running) (h : runStages (S :: Ss) s = .next t) (ht : t.status = .running) :
    ∃ u, Ran S s u ∧ runStages Ss u = .next t := by
  obtain ⟨u, hu, ⟨hrunning, hrest⟩ | ⟨hstopped, rfl⟩⟩ := thenRun_next h
  · exact ⟨u, ⟨hs, hu, hrunning⟩, hrest⟩
  · exact absurd ht hstopped

/-- A step that ends running is a full tick and the clock's advance. -/
theorem exists_fullTick (h : step s = .next t) (ht : t.status = .running) :
    ∃ wb m2 m1 e2 e1 d f, FullTick { s with flushedNow := false } wb m2 m1 e2 e1 d f ∧ t = advanceClock f := by
  obtain ⟨hticks, f, hrun, hf, rfl⟩ := step_next_of_running h ht
  obtain ⟨wb, hwb, hrun⟩ := runStages_cons_running (by exact hticks.1) hrun hf
  obtain ⟨m2, hm2, hrun⟩ := runStages_cons_running hwb.ends hrun hf
  obtain ⟨m1, hm1, hrun⟩ := runStages_cons_running hm2.ends hrun hf
  obtain ⟨e2, he2, hrun⟩ := runStages_cons_running hm1.ends hrun hf
  obtain ⟨e1, he1, hrun⟩ := runStages_cons_running he2.ends hrun hf
  obtain ⟨d, hd, hrun⟩ := runStages_cons_running he1.ends hrun hf
  rw [runStages_singleton] at hrun
  exact ⟨wb, m2, m1, e2, e1, d, f, ⟨hwb, hm2, hm1, he2, he1, hd, hd.ends, hrun, hf⟩, rfl⟩

theorem Ran.frame (h : Ran S s t) : StageFrame S s t := runStage_stageFrame h.starts h.runs

theorem Ran.older (h : Ran S s t) : OlderLatches S s t := runStage_olderLatches h.starts h.runs

/-! #### Each stage, when it raises nothing -/

/-- Memory2 hands on its latch, a load's with the word read, or a bubble. -/
theorem Ran.memory2_latches (h : Ran .memory2 s t) :
    ∃ l l', (s.latches.mem2.active = true → l' = l ∧ ∃ v, l = { s.latches.mem2 with buffer := v }) ∧
      t.latches = { s.latches with mem2 := l, wb := l' } := by
  obtain ⟨hactive, rfl⟩ | ⟨-, rfl⟩ | ⟨hactive, l, rfl, hl⟩ := runStage_memory2_next h.starts h.runs
  · exact ⟨s.latches.mem2, _, fun htrue => by simp [hactive] at htrue, rfl⟩
  · exact absurd h.ends (by simp [State.raised])
  · refine ⟨l, l, fun _ => ⟨rfl, ?_⟩, rfl⟩
    obtain rfl | ⟨k, rfl⟩ := hl
    · exact ⟨_, rfl⟩
    · exact ⟨_, rfl⟩

/-- An active branch with a staged target is in Memory1 (R121). -/
def State.commitsBranch (s : State) : Prop :=
  s.latches.mem1.active = true ∧ (s.latches.mem1.opcode = .op .bz ∨ s.latches.mem1.opcode = .op .bnz) ∧ s.brPending = true

/-- Memory1 flushes, or hands on its latch and leaves the younger latches and the redirects alone. -/
theorem Ran.memory1_cases (h : Ran .memory1 s t) :
    (s.commitsBranch ∧ t = (branchCommit { s with stage := .memory1 }).advanced .memory1 s.latches.mem1) ∨
    (¬ s.commitsBranch ∧ ∃ l dmem, (s.latches.mem1.active = true → l = s.latches.mem1) ∧
      t = { s with stage := .memory1, dmem := dmem, latches := { s.latches with mem2 := l } }) := by
  obtain ⟨hactive, rfl⟩ | ⟨-, rfl⟩ | ⟨hactive, u, rfl, ⟨hno, rfl⟩ | ⟨hcommit, rfl⟩ | ⟨hstore, k, -, rfl⟩⟩ :=
    runStage_memory1_next h.starts h.runs
  · exact .inr ⟨fun hcommit => by simp [hcommit.1] at hactive, _, s.dmem, fun htrue => by simp [hactive] at htrue, rfl⟩
  · exact absurd h.ends (by simp [State.raised])
  · exact .inr ⟨fun hcommit => hno hcommit.2, _, s.dmem, fun _ => rfl, rfl⟩
  · exact .inl ⟨⟨hactive, hcommit⟩, rfl⟩
  · refine .inr ⟨fun hcommit => ?_, _, _, fun _ => rfl, rfl⟩
    obtain hop | hop := hstore <;> simp [State.commitsBranch, hop] at hcommit

/-- Execute2 leaves no redirect pending, hands on its latch with results, or a bubble in a JUMP's place, and leaves the younger latches alone. -/
theorem Ran.execute2_latches (h : Ran .execute2 s t) :
    ∃ l l', t.latches = { s.latches with ex2 := l, mem1 := l' } ∧
      (s.latches.ex2.active = true → s.latches.ex2.noJump = true →
        l' = l ∧ ∃ i, Latch.Computed s.cfg.xlen i s.latches.ex2 l) ∧
      (s.latches.ex2.active = true → s.latches.ex2.noJump = false → l' = bubble true) := by
  have hlatches := s.entered_latches .execute2
  obtain ⟨hactive, rfl⟩ | ⟨hactive, hjump, rfl⟩ | ⟨hactive, hjump, u, l, rfl, hcomputed, rfl | ⟨base, imm, rfl⟩⟩ :=
    runStage_execute2_next h.starts h.runs
  · exact ⟨_, _, rfl, fun htrue => by simp [hactive] at htrue, fun htrue => by simp [hactive] at htrue⟩
  · exact ⟨_, _, rfl, fun _ htrue => by simp [hjump] at htrue, fun _ _ => rfl⟩
  · exact ⟨l, l, by simp [State.advanced], fun _ _ => ⟨rfl, _, hcomputed⟩, fun _ hfalse => by simp [hjump] at hfalse⟩
  · exact ⟨l, l, by simp [State.advanced], fun _ _ => ⟨rfl, _, hcomputed⟩, fun _ hfalse => by simp [hjump] at hfalse⟩

theorem Ran.execute1_ex2 (h : Ran .execute1 s t) (hactive : s.latches.ex1.active = true) :
    ∃ i, Latch.Computed s.cfg.xlen i s.latches.ex1 t.latches.ex2 := by
  obtain ⟨hinactive, rfl⟩ | ⟨-, u, l, rfl, hcomputed, -⟩ := runStage_execute1_next h.starts h.runs
  · simp [hinactive] at hactive
  · exact ⟨_, hcomputed⟩

/-! #### Through the tick -/

theorem FullTick.wb_latches (h : FullTick s wb m2 m1 e2 e1 d f) : wb.latches = s.latches :=
  runStage_writeback_latches h.writeback.starts h.writeback.runs

/-- No stage after Memory1 writes `flushed_now`. -/
theorem FullTick.flushedNow (h : FullTick s wb m2 m1 e2 e1 d f) : f.flushedNow = m1.flushedNow := by
  rw [h.fetch.frame.flushedNow (by decide), h.decode.frame.flushedNow (by decide), h.execute1.frame.flushedNow (by decide),
    h.execute2.frame.flushedNow (by decide)]

/-- Memory1 finds the latches up to its own as the tick began, and the staged target too. -/
theorem FullTick.m2_younger (h : FullTick s wb m2 m1 e2 e1 d f) :
    m2.latches.f = s.latches.f ∧ m2.latches.drf = s.latches.drf ∧ m2.latches.ex1 = s.latches.ex1 ∧
    m2.latches.ex2 = s.latches.ex2 ∧ m2.latches.mem1 = s.latches.mem1 := by
  obtain ⟨l, l', -, hm2⟩ := h.memory2.memory2_latches
  rw [hm2, h.wb_latches]
  exact ⟨rfl, rfl, rfl, rfl, rfl⟩

theorem FullTick.m2_commitsBranch_iff (h : FullTick s wb m2 m1 e2 e1 d f) : m2.commitsBranch ↔ s.commitsBranch := by
  obtain ⟨-, -, -, -, hmem1⟩ := h.m2_younger
  rw [State.commitsBranch, State.commitsBranch, hmem1, h.memory2.frame.brPending (by decide) (by decide),
    h.writeback.frame.brPending (by decide) (by decide)]

theorem FullTick.m2_flushedNow (h : FullTick s wb m2 m1 e2 e1 d f) : m2.flushedNow = s.flushedNow := by
  rw [h.memory2.frame.flushedNow (by decide), h.writeback.frame.flushedNow (by decide)]

/-- A tick flushes exactly when a branch with a staged target is in Memory1. -/
theorem FullTick.flushedNow_iff (h : FullTick s wb m2 m1 e2 e1 d f) (hs : s.flushedNow = false) :
    f.flushedNow = true ↔ s.commitsBranch := by
  rw [h.flushedNow, ← h.m2_commitsBranch_iff]
  obtain ⟨hcommit, rfl⟩ | ⟨hno, l, dmem, -, rfl⟩ := h.memory1.memory1_cases
  · exact ⟨fun _ => hcommit, fun _ => rfl⟩
  · refine ⟨fun hflushed => ?_, fun hcommit => absurd hcommit hno⟩
    simp [h.m2_flushedNow, hs] at hflushed

/-- Without a flush the stages after Memory1 find the younger latches as the tick began. -/
theorem FullTick.m1_younger (h : FullTick s wb m2 m1 e2 e1 d f) (hs : s.flushedNow = false) (hf : f.flushedNow = false) :
    m1.latches.f = s.latches.f ∧ m1.latches.drf = s.latches.drf ∧ m1.latches.ex1 = s.latches.ex1 ∧
    m1.latches.ex2 = s.latches.ex2 := by
  obtain ⟨hfetch, hdrf, hex1, hex2, -⟩ := h.m2_younger
  obtain ⟨hcommit, -⟩ | ⟨-, l, dmem, -, rfl⟩ := h.memory1.memory1_cases
  · rw [h.m2_commitsBranch_iff, ← h.flushedNow_iff hs, hf] at hcommit
    cases hcommit
  · exact ⟨hfetch, hdrf, hex1, hex2⟩

theorem FullTick.e2_younger (h : FullTick s wb m2 m1 e2 e1 d f) (hs : s.flushedNow = false) (hf : f.flushedNow = false) :
    e2.latches.f = s.latches.f ∧ e2.latches.drf = s.latches.drf ∧ e2.latches.ex1 = s.latches.ex1 := by
  obtain ⟨hfetch, hdrf, hex1, -⟩ := h.m1_younger hs hf
  obtain ⟨l, l', he2, -⟩ := h.execute2.execute2_latches
  rw [he2]
  exact ⟨hfetch, hdrf, hex1⟩

theorem FullTick.cfg (h : FullTick s wb m2 m1 e2 e1 d f) :
    wb.cfg = s.cfg ∧ m2.cfg = s.cfg ∧ m1.cfg = s.cfg ∧ e2.cfg = s.cfg ∧ e1.cfg = s.cfg ∧ d.cfg = s.cfg ∧ f.cfg = s.cfg := by
  have hwb := h.writeback.frame.cfg
  have hm2 := h.memory2.frame.cfg.trans hwb
  have hm1 := h.memory1.frame.cfg.trans hm2
  have he2 := h.execute2.frame.cfg.trans hm1
  have he1 := h.execute1.frame.cfg.trans he2
  have hd := h.decode.frame.cfg.trans he1
  exact ⟨hwb, hm2, hm1, he2, he1, hd, h.fetch.frame.cfg.trans hd⟩

/-! ### In-flight instructions (R140) -/

/-- What Memory2 hands on is in `L[WB]` at the end of the tick. -/
theorem FullTick.f_wb (h : FullTick s wb m2 m1 e2 e1 d f) : f.latches.wb = m2.latches.wb := by
  rw [h.fetch.older.wb (by decide), h.decode.older.wb (by decide), h.execute1.older.wb (by decide),
    h.execute2.older.wb (by decide), h.memory1.older.wb (by decide)]

theorem FullTick.f_mem2 (h : FullTick s wb m2 m1 e2 e1 d f) : f.latches.mem2 = m1.latches.mem2 := by
  rw [h.fetch.older.mem2 (by decide) (by decide), h.decode.older.mem2 (by decide) (by decide),
    h.execute1.older.mem2 (by decide) (by decide), h.execute2.older.mem2 (by decide) (by decide)]

theorem FullTick.f_mem1 (h : FullTick s wb m2 m1 e2 e1 d f) : f.latches.mem1 = e2.latches.mem1 := by
  rw [h.fetch.older.mem1 (by decide) (by decide), h.decode.older.mem1 (by decide) (by decide),
    h.execute1.older.mem1 (by decide) (by decide)]

theorem FullTick.f_ex2 (h : FullTick s wb m2 m1 e2 e1 d f) : f.latches.ex2 = e1.latches.ex2 := by
  rw [h.fetch.older.ex2 (by decide), h.decode.older.ex2 (by decide)]

end

/-- Settles O41: each stage hands on its latch as the tick began, and no later stage writes the latch it handed to. -/
theorem inFlightInstructionsMoveOneStage : Obligations.InFlightInstructionsMoveOneStage := by
  intro s t _ h ht same
  obtain ⟨wb, m2, m1, e2, e1, d, f, htick, rfl⟩ := exists_fullTick h ht
  refine ⟨fun hactive => ?_, fun hactive => ?_, fun hflush hactive hjump => ?_, fun hflush hactive hjump => ?_,
    fun hflush hactive => ?_⟩
  · obtain ⟨l, l', hl, hm2⟩ := htick.memory2.memory2_latches
    rw [htick.wb_latches] at hl hm2
    obtain ⟨rfl, v, rfl⟩ := hl hactive
    have hwb : (advanceClock f).latches.wb = { s.latches.mem2 with buffer := v } := htick.f_wb.trans (by rw [hm2])
    rw [hwb]
    exact ⟨rfl, rfl, hactive⟩
  · obtain ⟨-, -, -, -, hmem1⟩ := htick.m2_younger
    have hmem2 : (advanceClock f).latches.mem2 = s.latches.mem1 := by
      refine htick.f_mem2.trans (Eq.trans ?_ hmem1)
      obtain ⟨-, rfl⟩ | ⟨-, l, dmem, hl, rfl⟩ := htick.memory1.memory1_cases
      · rfl
      · exact hl (by rwa [hmem1])
    rw [hmem2]
    exact ⟨rfl, rfl, hactive⟩
  · obtain ⟨-, -, -, hex2⟩ := htick.m1_younger rfl hflush
    obtain ⟨l, l', he2, hl, -⟩ := htick.execute2.execute2_latches
    rw [hex2] at hl
    obtain ⟨rfl, i, hcomputed⟩ := hl hactive hjump
    have hmem1 : (advanceClock f).latches.mem1 = l' := htick.f_mem1.trans (by rw [he2])
    rw [hmem1]
    exact ⟨hcomputed.pc, hcomputed.instr? _, hcomputed.active.trans hactive⟩
  · obtain ⟨-, -, -, hex2⟩ := htick.m1_younger rfl hflush
    obtain ⟨l, l', he2, -, hl⟩ := htick.execute2.execute2_latches
    rw [hex2] at hl
    have hmem1 : (advanceClock f).latches.mem1 = l' := htick.f_mem1.trans (by rw [he2])
    rw [hmem1, hl hactive hjump]
  · obtain ⟨-, -, hex1⟩ := htick.e2_younger rfl hflush
    obtain ⟨i, hcomputed⟩ := htick.execute1.execute1_ex2 (by rwa [hex1])
    rw [hex1] at hcomputed
    have hex2 : (advanceClock f).latches.ex2 = e1.latches.ex2 := htick.f_ex2
    rw [hex2]
    exact ⟨hcomputed.pc, hcomputed.instr? _, hcomputed.active.trans hactive⟩

end Sys2Proof.Machine
end

section
namespace Sys2Proof.Machine

section
variable {s t wb m2 m1 e2 e1 d f : State}

/-! ### The flush over a tick (R121, R122) -/

/-- A tick after a flush that goes on at `pc`: nothing younger than Memory1 is left, and nothing is pending. -/
structure State.Flushed (s : State) (pc : Int) : Prop where
  pc : s.pc = pc
  f : s.latches.f = bubble false
  drf : s.latches.drf = bubble false
  ex1 : s.latches.ex1 = bubble false
  ex2 : s.latches.ex2 = bubble false
  z : s.z = false
  brPending : s.brPending = false
  jmpPending : s.jmpPending = false
  flushedNow : s.flushedNow = true

theorem branchCommit_flushed (s : State) (l : Latch) : ((branchCommit s).advanced .memory1 l).Flushed s.brTarget :=
  ⟨rfl, rfl, rfl, rfl, rfl, rfl, rfl, rfl, rfl⟩

/-- Execute2, Execute1 and Decode find bubbles after a flush, and nothing to redirect. -/
theorem Ran.execute2_flushed {pc : Int} (h : Ran .execute2 s t) (hs : s.Flushed pc) : t.Flushed pc := by
  have hactive : s.latches.ex2.active = false := by
    rw [hs.ex2]
    rfl
  cases ((inactiveLatchesForwardBubbles s).2.1 hactive hs.jmpPending).symm.trans h.runs
  exact ⟨hs.pc, hs.f, hs.drf, hs.ex1, hs.ex2, hs.z, hs.brPending, hs.jmpPending, hs.flushedNow⟩

theorem Ran.execute1_flushed {pc : Int} (h : Ran .execute1 s t) (hs : s.Flushed pc) : t.Flushed pc := by
  have hactive : s.latches.ex1.active = false := by
    rw [hs.ex1]
    rfl
  cases ((inactiveLatchesForwardBubbles s).1 hactive).symm.trans h.runs
  exact ⟨hs.pc, hs.f, hs.drf, hs.ex1, congrArg (fun l : Latch => bubble l.stalled) hs.ex1, hs.z, hs.brPending, hs.jmpPending,
    hs.flushedNow⟩

theorem Ran.decode_flushed {pc : Int} (h : Ran .decode s t) (hs : s.Flushed pc) : t.Flushed pc := by
  have hbubble : s.latches.drf.opcode = .bubble := by
    rw [hs.drf]
    rfl
  cases (runStage_decode_of_not_decoded (.inr hbubble)).symm.trans h.runs
  exact ⟨hs.pc, hs.f, congrArg (fun l : Latch => { l with stalled := false }) hs.drf, rfl, hs.ex2, hs.z, hs.brPending,
    hs.jmpPending, hs.flushedNow⟩

theorem FullTick.d_flushed (h : FullTick s wb m2 m1 e2 e1 d f) (hcommit : s.commitsBranch) : d.Flushed s.brTarget := by
  have htarget : m2.brTarget = s.brTarget := by
    rw [h.memory2.frame.brTarget (by decide), h.writeback.frame.brTarget (by decide)]
  have hm1 : m1.Flushed s.brTarget := by
    obtain ⟨-, rfl⟩ | ⟨hno, -⟩ := h.memory1.memory1_cases
    · exact htarget ▸ branchCommit_flushed _ _
    · exact absurd (h.m2_commitsBranch_iff.mpr hcommit) hno
  exact h.decode.decode_flushed (h.execute1.execute1_flushed (h.execute2.execute2_flushed hm1))

/-- A latch that Fetch loads is not busy and not stalled, and has the fetch pc. -/
theorem State.FetchesLatch.marks {l : Latch} (h : s.FetchesLatch l) : l.pc = s.pc ∧ l.busy = false ∧ l.stalled = false := by
  obtain rfl | ⟨r, -, rfl⟩ := h
  · exact ⟨rfl, rfl, rfl⟩
  · exact ⟨rfl, rfl, rfl⟩

/-- Fetch while held, with Decode not stalled: a bubble to Decode. -/
theorem Ran.fetch_of_held (h : Ran .fetch s t) (hheld : fetchHeld s = true) (hstalled : s.latches.drf.stalled = false) :
    t = { s with stage := .fetch, latches := { s.latches with drf := bubble false } } := by
  cases (runStage_fetch_of_held hheld).symm.trans h.runs
  rw [if_neg (by simp [hstalled])]

/-- Fetch while not held, with Decode not stalled: a latch with the fetch pc to both, and pc goes on. -/
theorem Ran.fetch_of_not_held (h : Ran .fetch s t) (hheld : fetchHeld s = false) (hstalled : s.latches.drf.stalled = false) :
    ∃ l, s.FetchesLatch l ∧ t = { s with
      stage := .fetch, pc := wrap s.cfg.xlen (s.pc + s.cfg.width), latches := { s.latches with f := l, drf := l } } := by
  obtain ⟨hheld', -⟩ | ⟨-, l, hl, ht⟩ | ⟨-, rfl⟩ := runStage_fetch_next h.runs
  · simp [hheld] at hheld'
  · exact ⟨l, hl, by rw [ht, State.fetched, if_neg (by simp [hstalled])]⟩
  · exact absurd h.ends (by simp [State.raised])

end

/-- Settles O42: Memory1 flushes, the three stages after it pass bubbles on, and Fetch goes on at the target. -/
theorem takenBranchFlushesTheTick : Obligations.TakenBranchFlushesTheTick := by
  intro s t _ h ht
  obtain ⟨wb, m2, m1, e2, e1, d, f, htick, rfl⟩ := exists_fullTick h ht
  have hiff := htick.flushedNow_iff rfl
  refine ⟨hiff, fun hflushed => ?_⟩
  have hd := htick.d_flushed (hiff.mp hflushed)
  obtain ⟨-, -, -, -, -, hcfg, -⟩ := htick.cfg
  have hheld : fetchHeld d = s.cfg.flushFetchHold := by
    simp [fetchHeld, State.latch, Latches.get, hd.f, hd.flushedNow, bubble, hcfg]
  have hstalled : d.latches.drf.stalled = false := by
    rw [hd.drf]
    rfl
  cases hhold : s.cfg.flushFetchHold with
  | true =>
    rw [htick.fetch.fetch_of_held (hheld.trans hhold) hstalled]
    exact ⟨hd.ex1, hd.ex2, hd.brPending, hd.jmpPending, hd.z, fun _ => ⟨hd.pc, hd.f, rfl⟩, nofun⟩
  | false =>
    obtain ⟨l, hl, hf⟩ := htick.fetch.fetch_of_not_held (hheld.trans hhold) hstalled
    rw [hf, hcfg, hd.pc]
    exact ⟨hd.ex1, hd.ex2, hd.brPending, hd.jmpPending, hd.z, nofun, fun _ => ⟨rfl, hl.marks.1.trans hd.pc, rfl⟩⟩

/-! ### JUMP over a tick (R212, R271) -/

section
variable {s t e2 e1 d f : State}

/-- Fetch is neither frozen nor held for a flush. -/
structure State.FetchFree (s : State) : Prop where
  busy : s.latches.f.busy = false
  stalled : s.latches.f.stalled = false
  flushedNow : s.flushedNow = false

theorem State.FetchFree.not_held (h : s.FetchFree) : fetchHeld s = false := by
  simp [fetchHeld, State.latch, Latches.get, h.busy, h.stalled, h.flushedNow]

/-- The stages from Execute1 on, with an active JUMP to `target` there and Fetch free: Decode sends a bubble for what it held, and
Fetch goes on at the target, where the redirect that is left pending points past it. -/
theorem jump_rest_of_tick {base imm : Int} (he1 : Ran .execute1 e2 e1) (hd : Ran .decode e1 d) (hf : Ran .fetch d f)
    (hactive : e2.latches.ex1.active = true) (hjump : e2.latches.ex1.instr? e2.cfg.jumpBase = some (.jump base imm))
    (hfree : e2.FetchFree) :
    ∃ l, l.pc = e2.target e2.latches.ex1.rs1Value imm ∧ l.busy = false ∧ l.stalled = false ∧
      f.latches.f = l ∧ f.latches.drf = l ∧ f.latches.ex1 = bubble false ∧
      f.pc = wrap e2.cfg.xlen (e2.target e2.latches.ex1.rs1Value imm + e2.cfg.width) ∧
      f.jmpPending = true ∧ f.jmpAddr = f.pc := by
  have hexec := (runStage_of_instr? (S := .execute1) (by decide) hactive hjump).symm.trans he1.runs
  rw [State.entered_of_ne e2 (by decide)] at hexec
  cases (jump_exec_execute1 base imm (s := { e2 with stage := .execute1 }) ⟨rfl, he1.starts⟩ hactive).symm.trans hexec
  cases (runStage_decode_of_not_decoded (.inl rfl)).symm.trans hd.runs
  obtain ⟨l, hl, rfl⟩ := hf.fetch_of_not_held
    (State.FetchFree.not_held ⟨hfree.busy, hfree.stalled, hfree.flushedNow⟩) rfl
  obtain ⟨hpc, hbusy, hstalled⟩ := hl.marks
  exact ⟨l, hpc, hbusy, hstalled, rfl, rfl, rfl, rfl, rfl, rfl⟩

end

/-- A target is computed from the parameters and the operands only. -/
theorem State.target_of_cfg {s t : State} (hcfg : t.cfg = s.cfg) (base imm : Int) : t.target base imm = s.target base imm := by
  rw [State.target, hcfg]
  rfl

/-- Settles O43: the stages before Execute1 leave the JUMP, its Decode and Fetch as they were. -/
theorem jumpCostsOneBubble : Obligations.JumpCostsOneBubble := by
  intro s t base imm _ h ht hflush hactive hjump hbusy hstalled target
  obtain ⟨wb, m2, m1, e2, e1, d, f, htick, rfl⟩ := exists_fullTick h ht
  obtain ⟨hf, -, hex1⟩ := htick.e2_younger rfl hflush
  obtain ⟨-, -, -, hcfg, -⟩ := htick.cfg
  have hfree : e2.FetchFree := by
    refine ⟨by rwa [hf], by rwa [hf], ?_⟩
    rw [htick.execute2.frame.flushedNow (by decide), ← htick.flushedNow]
    exact hflush
  obtain ⟨l, hpc, -, -, hlf, hldrf, hlex1, hfpc, hpending, haddr⟩ := jump_rest_of_tick htick.execute1 htick.decode htick.fetch
    (by rwa [hex1]) (by rwa [hex1, hcfg]) hfree
  have htarget : e2.target e2.latches.ex1.rs1Value imm = target := by
    rw [State.target_of_cfg hcfg, hex1]
    rfl
  rw [htarget] at hpc hfpc
  rw [hcfg] at hfpc
  exact ⟨hlex1, hldrf.trans hlf.symm, (congrArg Latch.pc hlf).trans hpc, hfpc, hpending, haddr⟩

/-! ### The reservation over a tick (R103, R108, R113) -/

section
variable {s t : State}

theorem State.isValid_of_set {valid : List Bool} {r : Nat} (h : s.valid = valid.set r false) : s.isValid r = false := by
  rw [State.isValid, h]
  by_cases hr : r < valid.length
  · simp [hr]
  · rw [List.getD_eq_default _ _ (by simpa using hr)]

/-- Execute1 of an active producer reserves its register and leaves `L[DRF]` alone. -/
theorem Ran.execute1_reserves {p : Instr} {r : Nat} (h : Ran .execute1 s t) (hactive : s.latches.ex1.active = true)
    (hp : s.latches.ex1.instr? s.cfg.jumpBase = some p) (hdest : p.destField? = some (r : Int)) :
    t.isValid r = false ∧ t.latches.drf = s.latches.drf := by
  have hexec := (runStage_of_instr? (S := .execute1) (by decide) hactive hp).symm.trans h.runs
  rw [State.entered_of_ne s (by decide)] at hexec
  obtain ⟨q, hq, -, hvalid⟩ := exec_execute1_valid hdest rfl hexec
  obtain rfl : r = q := by simpa using hq
  refine ⟨State.isValid_of_set hvalid, ?_⟩
  have hjump : p.opcode ≠ .jump := by
    cases p <;> simp [Instr.opcode, Instr.destField?] at hdest ⊢
  exact (instructionsWriteOnlyTheirLatches _ _ _ hexec).2.2.2.1 (by simp) (by simp) (by simp) (by simp [hjump])

/-- Decode of the reader of a reserved register, when it raises nothing, holds it. -/
theorem Ran.decode_held {i : Instr} {r : Nat} (h : Ran .decode s t) (hi : s.latches.drf.instr? s.cfg.jumpBase = some i)
    (hbusy : s.latches.drf.busy = false) (hr : (r : Int) ∈ i.sourceFields) (hreserved : s.isValid r = false) :
    t = State.held { s with stage := .decode } := by
  have hexec := (runStage_decode_of_instr? hbusy hi).symm.trans h.runs
  obtain ⟨hfields, -⟩ | ⟨f, v, -, rfl⟩ := exec_decode_next (s := { s with stage := .decode }) rfl hexec
  · cases (exec_decode_of_reserved (s := { s with stage := .decode }) ⟨rfl, h.starts⟩ hfields hr hreserved).symm.trans hexec
    rfl
  · exact absurd h.ends (by simp [State.raised])

/-- Fetch, when it raises nothing, leaves a stalled Decode its latch. -/
theorem Ran.fetch_of_stalled (h : Ran .fetch s t) (hstalled : s.latches.drf.stalled = true) :
    t.latches.drf = s.latches.drf ∧ t.latches.ex1 = s.latches.ex1 := by
  obtain ⟨-, rfl⟩ | ⟨-, l, -, rfl⟩ | ⟨-, rfl⟩ := runStage_fetch_next h.runs
  · rw [if_pos hstalled]
    exact ⟨rfl, rfl⟩
  · rw [State.fetched, if_pos hstalled]
    exact ⟨rfl, rfl⟩
  · exact ⟨rfl, rfl⟩

end

/-- Settles O44: Execute1 reserves, Decode reads the scoreboard after it and holds the reader, and Fetch leaves a stalled Decode
alone. -/
theorem reservationStallsTheReaderInTheSameTick : Obligations.ReservationStallsTheReaderInTheSameTick := by
  intro s t p i r _ h ht hflush hactive hp hdest hi hbusy hr
  obtain ⟨wb, m2, m1, e2, e1, d, f, htick, rfl⟩ := exists_fullTick h ht
  obtain ⟨-, hdrf, hex1⟩ := htick.e2_younger rfl hflush
  obtain ⟨-, -, -, hcfg, hcfg1, -, -⟩ := htick.cfg
  obtain ⟨hreserved, hkept⟩ := htick.execute1.execute1_reserves (by rwa [hex1]) (by rwa [hex1, hcfg]) hdest
  have he1 : e1.latches.drf = s.latches.drf := hkept.trans hdrf
  have hd := htick.decode.decode_held (by rwa [he1, hcfg1]) (by rwa [he1]) hr hreserved
  obtain ⟨hfdrf, hfex1⟩ := htick.fetch.fetch_of_stalled (by rw [hd]; rfl)
  have hlatch : (advanceClock f).latches.drf = { s.latches.drf with stalled := true } := by
    rw [← he1]
    exact hfdrf.trans (by rw [hd]; rfl)
  have hbubble : (advanceClock f).latches.ex1 = bubble true := hfex1.trans (by rw [hd]; rfl)
  rw [hlatch, hbubble]
  exact ⟨rfl, hi, rfl⟩

end Sys2Proof.Machine
end

section
namespace Sys2Proof.Machine

/-! ### The redirect invariant (R143) -/

section
variable {s t wb m2 m1 e2 e1 d f : State}

/-- What Decode leaves to Fetch: no redirect is pending, and a frozen Fetch finds Decode not stalled and no JUMP sent on. -/
structure State.RedirectDone (s : State) : Prop where
  notPending : s.jmpPending = false
  frozenNotStalled : s.latches.f.busy = true → s.latches.drf.stalled = false
  frozenNoJump : s.latches.f.busy = true → s.latches.ex1.noJump = true
  fetchNotStalled : s.latches.f.stalled = false

theorem State.Flushed.redirectDone {pc : Int} (h : s.Flushed pc) : s.RedirectDone := by
  refine ⟨h.jmpPending, fun _ => ?_, fun _ => ?_, ?_⟩
  · rw [h.drf]
    rfl
  · rw [h.ex1]
    rfl
  · rw [h.f]
    rfl

/-- With Fetch not frozen only the pending redirect is left to look at. -/
theorem State.redirectInv_of_not_busy (hpending : s.jmpPending = true → s.jmpAddr = s.pc) (hbusy : s.latches.f.busy = false)
    (hstalled : s.latches.f.stalled = false) : s.RedirectInv :=
  ⟨hpending, fun htrue => absurd (hbusy.symm.trans htrue) Bool.false_ne_true,
    fun htrue => absurd (hbusy.symm.trans htrue) Bool.false_ne_true, hstalled⟩

/-- A frozen Fetch sends Decode a bubble; a free one leaves `L[F]` not busy. -/
theorem Ran.fetch_redirectInv (h : Ran .fetch s t) (hs : s.RedirectDone) : t.RedirectInv := by
  have hnot {p : Prop} (hpending : s.jmpPending = true) : p := absurd (hs.notPending.symm.trans hpending) Bool.false_ne_true
  obtain ⟨-, rfl⟩ | ⟨-, l, hl, rfl⟩ | ⟨-, rfl⟩ := runStage_fetch_next h.runs
  · split
    · have hbusy : s.latches.f.busy = false := by
        by_contra htrue
        simp_all [hs.frozenNotStalled (by simpa using htrue)]
      exact State.redirectInv_of_not_busy hnot hbusy hs.fetchNotStalled
    · exact ⟨hnot, fun _ => rfl, hs.frozenNoJump, hs.fetchNotStalled⟩
  · obtain ⟨-, hbusy, hstalled⟩ := hl.marks
    unfold State.fetched
    split
    · exact State.redirectInv_of_not_busy hnot hbusy hstalled
    · exact State.redirectInv_of_not_busy hnot hbusy hstalled
  · exact absurd h.ends (by simp [State.raised])

/-- Only HALT's Decode freezes Fetch, and it passes on a HALT. -/
theorem Ran.decode_redirectDone (h : Ran .decode s t) (hpending : s.jmpPending = false) (hstalled : s.latches.f.stalled = false)
    (hfrozen : s.latches.f.busy = true → s.latches.drf.opcode = .bubble) : t.RedirectDone := by
  have hpending' : t.jmpPending = false := (h.frame.redirect (by simp)).2.1.trans hpending
  obtain ⟨-, rfl⟩ | ⟨text, rfl⟩ | ⟨hbusy, o, hop, hexec⟩ := runStage_decode_next h.runs
  · exact ⟨hpending, fun _ => rfl, fun _ => rfl, hstalled⟩
  · exact absurd h.ends (by simp [State.raised])
  · by_cases hhalt : o = .halt
    · subst hhalt
      cases (halt_exec_decode (s := { s with stage := .decode }) ⟨rfl, h.starts⟩).symm.trans hexec
      exact ⟨hpending, fun _ => rfl, fun _ => Latch.noJump_iff.mpr (by simp [State.advanced, hop]), hstalled⟩
    · have hf : t.latches.f = s.latches.f :=
        (instructionsWriteOnlyTheirLatches _ _ _ hexec).1 (by simp) (by simp) (by simp [decodeFields_opcode, hhalt])
      have hfree : t.latches.f.busy = true → False := fun htrue => by
        rw [hf] at htrue
        simp [hfrozen htrue] at hop
      exact ⟨hpending', fun htrue => (hfree htrue).elim, fun htrue => (hfree htrue).elim, by rwa [hf]⟩

theorem Ran.execute2_jmpPending (h : Ran .execute2 s t) : t.jmpPending = false := by
  have hentered : (s.entered .execute2).jmpPending = false := applyRedirect_jmpPending _
  obtain ⟨-, rfl⟩ | ⟨-, -, rfl⟩ | ⟨-, -, u, l, rfl, -, rfl | ⟨base, imm, rfl⟩⟩ := runStage_execute2_next h.starts h.runs
  · exact hentered
  · exact hentered
  · exact hentered
  · exact hentered

/-- Execute1 without an active JUMP leaves the redirect, Decode and Fetch alone. -/
theorem Ran.execute1_of_no_jump (h : Ran .execute1 s t) (hjump : s.latches.ex1.active = true → s.latches.ex1.noJump = true) :
    t.jmpPending = s.jmpPending ∧ t.latches.f = s.latches.f ∧ t.latches.drf = s.latches.drf := by
  obtain ⟨-, rfl⟩ | ⟨hactive, u, l, rfl, -, ⟨-, valid, -, rfl⟩ | ⟨hisJump, -⟩⟩ := runStage_execute1_next h.starts h.runs
  · exact ⟨rfl, rfl, rfl⟩
  · exact ⟨rfl, rfl, rfl⟩
  · simp [hjump hactive] at hisJump

end

/-- Settles O51: a flush leaves nothing to redirect; a JUMP in Execute1 leaves the redirect that Fetch's advance meets; and in
every other tick Execute2 has cleared the redirect. -/
theorem everyStepKeepsTheRedirectInvariant : Obligations.EveryStepKeepsTheRedirectInvariant := by
  intro s t hinv h ht
  obtain ⟨wb, m2, m1, e2, e1, d, f, htick, rfl⟩ := exists_fullTick h ht
  have hf : f.RedirectInv := by
    cases hflush : f.flushedNow with
    | true => exact htick.fetch.fetch_redirectInv (htick.d_flushed ((htick.flushedNow_iff rfl).mp hflush)).redirectDone
    | false =>
      obtain ⟨hef, hedrf, hex1⟩ := htick.e2_younger rfl hflush
      by_cases hjump : s.latches.ex1.active = true → s.latches.ex1.noJump = true
      · obtain ⟨hpending, hf1, hdrf1⟩ := htick.execute1.execute1_of_no_jump (by rwa [hex1])
        refine htick.fetch.fetch_redirectInv (htick.decode.decode_redirectDone ?_ ?_ ?_)
        · exact hpending.trans htick.execute2.execute2_jmpPending
        · rw [hf1, hef]
          exact hinv.fetchNotStalled
        · rw [hf1, hdrf1, hef, hedrf]
          exact hinv.frozenDecodesNothing
      · obtain ⟨hactive, hisJump⟩ := Classical.not_imp.mp hjump
        have hbusy : s.latches.f.busy = false := Bool.eq_false_of_not_eq_true fun htrue => hisJump (hinv.frozenNoJump htrue)
        have hfree : e2.FetchFree := by
          refine ⟨by rwa [hef], by rw [hef]; exact hinv.fetchNotStalled, ?_⟩
          rw [htick.execute2.frame.flushedNow (by decide), ← htick.flushedNow]
          exact hflush
        obtain ⟨base, imm, hinstr⟩ := e2.latches.ex1.instr?_eq_jump e2.cfg.jumpBase
          (by rw [hex1]; exact Bool.eq_false_of_not_eq_true hisJump)
        obtain ⟨l, -, hlbusy, hlstalled, rfl, -, -, -, -, haddr⟩ := jump_rest_of_tick htick.execute1 htick.decode htick.fetch
          (by rwa [hex1]) hinstr hfree
        exact State.redirectInv_of_not_busy (fun _ => haddr) hlbusy hlstalled
  exact ⟨hf.pendingIsPc, hf.frozenDecodesNothing, hf.frozenNoJump, hf.fetchNotStalled⟩

end Sys2Proof.Machine
end

section
namespace Sys2Proof.Machine

/-! ### When a stage procedure answers a next state (R246, log entry 4) -/

/-- `r` is a next state. -/
def Answers (r : Result) : Prop := ∃ t, r = .next t

section
variable {i : Instr} {s t : State} {r : Result}

theorem Answers.next (t : State) : Answers (.next t) := ⟨t, rfl⟩

theorem Answers.thenRun {f : State → Result} (hr : Answers r) (hf : ∀ u, r = .next u → u.status = .running → Answers (f u)) :
    Answers (thenRun r f) := by
  obtain ⟨u, rfl⟩ := hr
  by_cases hrunning : u.status = .running
  · rw [thenRun_of_running f hrunning]
    exact hf u rfl hrunning
  · rw [thenRun_of_stopped f hrunning]
    exact .next u

theorem withDest_answers {rd : Int} (hrd : inRange s.cfg.nreg rd = true) {g : Nat → State} :
    Answers (withDest rd s fun q => .next (g q)) := by
  obtain ⟨q, rfl, hq⟩ := exists_reg_of_inRange hrd
  rw [withDest_of_lt hq]
  exact .next _

theorem reserve_answers {rd : Int} (hrd : inRange s.cfg.nreg rd = true) : Answers (reserve rd s) := withDest_answers hrd

theorem executeResult_answers {rd : Int} (hrd : inRange s.cfg.nreg rd = true) (v : State → Int) :
    Answers (executeResult rd v s) :=
  (reserve_answers hrd).thenRun fun _ _ _ => .next _

theorem executeLoadAddress_answers {rd : Int} (hrd : inRange s.cfg.nreg rd = true) (ea : State → Int) :
    Answers (executeLoadAddress rd ea s) :=
  (reserve_answers hrd).thenRun fun _ _ _ => .next _

theorem loadCell_answers (s : State) : Answers (loadCell s) := by
  unfold loadCell
  obtain ⟨c, -, hread⟩ | ⟨-, hraise⟩ := memRead_cases s.own.memAddress s fun v => .next (setBuffer v s)
  · exact ⟨_, hread⟩
  · exact ⟨_, hraise⟩

theorem storeCell_answers (s : State) : Answers (storeCell s) := by
  unfold storeCell
  obtain ⟨c, -, hwrite⟩ | ⟨-, hraise⟩ := memWrite_cases s.own.memAddress s.own.rs1Value s
  · exact ⟨_, hwrite⟩
  · exact ⟨_, hraise⟩

theorem commit_answers {rd : Int} (hrd : inRange s.cfg.nreg rd = true) : Answers (commit rd s) := withDest_answers hrd

theorem commitWithFlag_answers {rd : Int} (hrd : inRange s.cfg.nreg rd = true) : Answers (commitWithFlag rd s) :=
  (commit_answers hrd).thenRun fun _ _ _ => .next _

theorem exec_decode_answers (hruns : s.runs .decode) : Answers (exec i s) := by
  obtain hfields | ⟨f, v, hfind, -⟩ := fieldsInRange_or_find? i s.cfg
  · exact ⟨_, exec_decode_of_inRange hruns hfields⟩
  · exact ⟨_, exec_decode_of_find? hruns.1 hfind⟩

/-- Of a meaning only the actions after Decode are left to look at. -/
theorem answers_of_perform {d e1 e2 m1 m2 w : State → Result} {c : State → Bool} (hrunning : s.status = .running)
    (hi : ∀ s, exec i s = perform s d e1 e2 m1 m2 w (c s))
    (he1 : Answers (e1 s) := by exact .next _) (he2 : Answers (e2 s) := by exact .next _)
    (hm1 : Answers (m1 s) := by exact .next _) (hm2 : Answers (m2 s) := by exact .next _)
    (hw : Answers (w s) := by exact .next _) : Answers (exec i s) := by
  cases hstage : s.stage with
  | fetch => exact ⟨_, (hi s).trans (perform_fetch hstage)⟩
  | decode => exact exec_decode_answers ⟨hstage, hrunning⟩
  | execute1 =>
    rw [hi, perform_execute1 hstage]
    exact he1.thenRun fun _ _ _ => .next _
  | execute2 =>
    rw [hi, perform_execute2 hstage]
    exact he2.thenRun fun _ _ _ => .next _
  | memory1 =>
    rw [hi, perform_memory1 hstage]
    exact hm1.thenRun fun _ _ _ => .next _
  | memory2 =>
    rw [hi, perform_memory2 hstage]
    exact hm2.thenRun fun _ _ _ => .next _
  | writeback =>
    rw [hi, perform_writeback hstage]
    exact hw.thenRun fun _ _ _ => .next _

/-- An instruction whose fields are in range answers in every stage: the one stop of the model is on a destination out of range. -/
theorem exec_answers (hrunning : s.status = .running) (hfields : i.fieldsInRange s.cfg = true) : Answers (exec i s) := by
  cases i with
  | store _ _ _ | str _ _ _ => exact answers_of_perform hrunning (fun _ => rfl) (hm1 := storeCell_answers s)
  | bz _ | bnz _ | jump _ _ | halt | nop => exact answers_of_perform hrunning fun _ => rfl
  | movc _ _ =>
    have hrd := (List.all_eq_true.mp hfields) _ List.mem_cons_self
    exact answers_of_perform hrunning (fun _ => rfl) (he1 := executeResult_answers hrd _) (hw := commit_answers hrd)
  | add _ _ _ | addl _ _ _ | sub _ _ _ | subl _ _ _ | mul _ _ _ =>
    have hrd := (List.all_eq_true.mp hfields) _ List.mem_cons_self
    exact answers_of_perform hrunning (fun _ => rfl) (he1 := executeResult_answers hrd _) (hw := commitWithFlag_answers hrd)
  | and _ _ _ | or _ _ _ | xor _ _ _ =>
    have hrd := (List.all_eq_true.mp hfields) _ List.mem_cons_self
    exact answers_of_perform hrunning (fun _ => rfl) (he1 := reserve_answers hrd) (hw := commit_answers hrd)
  | load _ _ _ | ldr _ _ _ =>
    have hrd := (List.all_eq_true.mp hfields) _ List.mem_cons_self
    exact answers_of_perform hrunning (fun _ => rfl) (he1 := executeLoadAddress_answers hrd _) (hm2 := loadCell_answers s)
      (hw := commit_answers hrd)

/-! #### The stage procedures -/

theorem Latch.inFlightOk_iff {c : Config} {l : Latch} : l.inFlightOk c = true ↔ l.opcode = .bubble ∨
    ∃ i, l.instr? c.jumpBase = some i ∧ l.busy = false ∧ l.stalled = false ∧ i.fieldsInRange c = true := by
  unfold Latch.inFlightOk Latch.instr?
  cases l.opcode with
  | bubble => simp
  | unknown text => simp
  | op o => simp [and_assoc]

/-- A stage procedure past Decode answers on a latch whose instruction has its fields in range. -/
theorem runStage_late_answers {S : Stage} (hS : S ∈ latePipeline) (hrunning : s.status = .running)
    (hok : (s.latch S).inFlightOk s.cfg = true) : Answers (runStage S s) := by
  cases hactive : (s.latch S).active with
  | false => exact ⟨_, runStage_of_inactive hS hactive⟩
  | true =>
    obtain hbubble | ⟨i, hi, -, -, hfields⟩ := Latch.inFlightOk_iff.mp hok
    · exact absurd hbubble (Latch.active_iff.mp hactive).1
    · rw [runStage_of_instr? hS hactive hi]
      exact exec_answers ((s.entered_status S).trans hrunning) (by rwa [State.entered_cfg])

theorem runStage_decode_answers (hrunning : s.status = .running) : Answers (runStage .decode s) := by
  by_cases hskip : s.latches.drf.busy = true ∨ s.latches.drf.opcode = .bubble
  · exact ⟨_, runStage_decode_of_not_decoded hskip⟩
  · obtain ⟨hbusy, hbubble⟩ := not_or.mp hskip
    rw [Bool.not_eq_true] at hbusy
    cases hop : s.latches.drf.opcode with
    | bubble => exact absurd hop hbubble
    | unknown text => exact ⟨_, runStage_decode_of_unknown hbusy hop⟩
    | op o =>
      rw [runStage_decode_of_instr? hbusy (Latch.instr?_of_op hop)]
      exact exec_decode_answers (s := { s with stage := .decode }) ⟨rfl, hrunning⟩

theorem runStage_fetch_answers (s : State) : Answers (runStage .fetch s) := by
  cases hheld : fetchHeld s with
  | true => exact ⟨_, runStage_fetch_of_held hheld⟩
  | false =>
    cases hcode : codeAt? s with
    | some r => exact ⟨_, runStage_fetch_of_codeAt? hheld hcode⟩
    | none =>
      cases hoob : s.cfg.fetchOob with
      | bubble => exact ⟨_, runStage_fetch_of_bubble hheld hcode hoob⟩
      | fault => exact ⟨_, runStage_fetch_of_fault hheld hcode hoob⟩

end

/-! ### The machine invariant, stage by stage (R29, R34, R141, R212) -/

section
variable {s t : State}

theorem State.Inv.isPowerOfTwo (h : s.Inv) : isPowerOfTwo s.cfg.width = true := (config_wellFormed_iff.mp h.cfgOk).1

theorem State.Inv.entered (h : s.Inv) (S : Stage) : (s.entered S).Inv := by
  by_cases hS : S = .execute2
  · subst hS
    rw [State.entered_execute2]
    split
    · exact { h with pcAligned := h.jmpAddrAligned }
    · exact { h with }
  · rw [State.entered_of_ne s hS]
    exact { h with }

theorem State.target_aligned (hw : isPowerOfTwo s.cfg.width = true) (base imm : Int) :
    alignedTo s.cfg.width (s.target base imm) = true :=
  (target_eq s base imm).2 ▸ alignedTo_align hw _

theorem runStage_writeback_inv (hs : s.Inv) (hrunning : s.status = .running) (h : runStage .writeback s = .next t) : t.Inv := by
  obtain ⟨-, rfl⟩ | ⟨_, r, z, -, -, -, -, -, rfl⟩ | ⟨-, z, b, hb, rfl⟩ := runStage_writeback_next hrunning h
  · exact { hs with }
  · exact { hs with
      registerCount := List.length_set.trans hs.registerCount
      validCount := (State.committed_valid_length _ r z).trans hs.validCount }
  · exact { hs with bstallInBudget := hb.trans hs.bstallInBudget }

theorem runStage_memory2_inv (hs : s.Inv) (hrunning : s.status = .running) (h : runStage .memory2 s = .next t) : t.Inv := by
  obtain ⟨-, rfl⟩ | ⟨-, rfl⟩ | ⟨-, l, rfl, hl⟩ := runStage_memory2_next hrunning h
  · exact { hs with wbOk := rfl, wbNoJump := rfl }
  · exact { hs with }
  · obtain ⟨hok, hjump⟩ : l.inFlightOk s.cfg = true ∧ l.noJump = true := by
      obtain rfl | ⟨k, rfl⟩ := hl
      · exact ⟨hs.mem2Ok, hs.mem2NoJump⟩
      · exact ⟨hs.mem2Ok, hs.mem2NoJump⟩
    exact { hs with mem2Ok := hok, mem2NoJump := hjump, wbOk := hok, wbNoJump := hjump }

theorem runStage_memory1_inv (hs : s.Inv) (hrunning : s.status = .running) (h : runStage .memory1 s = .next t) : t.Inv := by
  obtain ⟨-, rfl⟩ | ⟨-, rfl⟩ | ⟨-, u, rfl, ⟨-, rfl⟩ | ⟨-, rfl⟩ | ⟨-, k, hk, rfl⟩⟩ := runStage_memory1_next hrunning h
  · exact { hs with mem2Ok := rfl, mem2NoJump := rfl }
  · exact { hs with }
  · exact { hs with mem2Ok := hs.mem1Ok, mem2NoJump := hs.mem1NoJump }
  · exact { hs with
      pcAligned := hs.brTargetAligned
      fetchNotStalled := rfl
      ex1Ok := rfl
      ex2Ok := rfl
      mem2Ok := hs.mem1Ok
      mem2NoJump := hs.mem1NoJump }
  · refine { hs with
      memCanonical := Memory.wf_write k _ hs.memCanonical
      memInRange := fun p hp => ?_
      mem2Ok := hs.mem1Ok
      mem2NoJump := hs.mem1NoJump }
    obtain hp | rfl := Memory.mem_write hp
    · exact hs.memInRange p hp
    · exact (dataIndex?_eq_some.mp hk).2

/-- The state with a bubble in `L[EX2]`: between Execute2 and Execute1 a JUMP stands there with its stall mark, and nothing reads
it. -/
def State.clearEx2 (s : State) : State := { s with latches := { s.latches with ex2 := bubble false } }

theorem runStage_execute2_inv (hs : s.Inv) (hrunning : s.status = .running) (h : runStage .execute2 s = .next t) :
    t.clearEx2.Inv := by
  have hentered := hs.entered .execute2
  have hlatches := s.entered_latches .execute2
  obtain ⟨-, rfl⟩ | ⟨-, -, rfl⟩ | ⟨-, hjump, u, l, rfl, hcomputed, hu⟩ := runStage_execute2_next hrunning h
  · rw [← hlatches]
    exact { hentered with ex2Ok := rfl, mem1Ok := rfl, mem1NoJump := rfl }
  · rw [← hlatches]
    exact { hentered with ex2Ok := rfl, mem1Ok := rfl, mem1NoJump := rfl }
  · have hok : l.inFlightOk (s.entered .execute2).cfg = true := by
      rw [hcomputed.inFlightOk, State.entered_cfg]
      exact hs.ex2Ok
    have hnoJump : l.noJump = true := hcomputed.noJump.trans hjump
    obtain rfl | ⟨base, imm, rfl⟩ := hu
    · exact { hentered with ex2Ok := rfl, mem1Ok := hok, mem1NoJump := hnoJump }
    · have htarget := State.target_aligned hentered.isPowerOfTwo base imm
      rw [State.entered_target] at htarget
      exact { hentered with brTargetAligned := htarget, ex2Ok := rfl, mem1Ok := hok, mem1NoJump := hnoJump }

theorem runStage_execute1_inv (hs : s.clearEx2.Inv) (hrunning : s.status = .running) (h : runStage .execute1 s = .next t) :
    t.Inv := by
  obtain ⟨-, rfl⟩ | ⟨-, u, l, rfl, hcomputed, hu⟩ := runStage_execute1_next hrunning h
  · exact { hs with ex2Ok := rfl }
  · have hok : l.inFlightOk s.cfg = true := (hcomputed.inFlightOk _).trans hs.ex1Ok
    obtain ⟨-, valid, hvalid, rfl⟩ | ⟨-, imm, rfl⟩ := hu
    · exact { hs with validCount := hvalid.trans hs.validCount, ex1Ok := hok, ex2Ok := hok }
    · have htarget := State.target_aligned (s := s) hs.isPowerOfTwo s.latches.ex1.rs1Value imm
      exact { hs with
        pcAligned := htarget
        jmpAddrAligned := alignedTo_add_width _ hs.isPowerOfTwo htarget
        ex1Ok := hok
        ex2Ok := hok }

/-! #### Decode -/

/-- Reading sources fills value fields, and fills them with words if the registers hold words. -/
theorem readSources_eq (s : State) (srcs : List (ValueSlot × Nat)) (l : Latch) :
    ∃ a b c, readSources s l srcs = { l with rs1Value := a, rs2Value := b, rs3Value := c } ∧
      ∀ n, (∀ r, isWord n (s.readReg r) = true) → l.wordsFit n = true → (readSources s l srcs).wordsFit n = true := by
  induction srcs generalizing l with
  | nil => exact ⟨l.rs1Value, l.rs2Value, l.rs3Value, rfl, fun _ _ hl => hl⟩
  | cons p rest ih =>
    obtain ⟨slot, r⟩ := p
    obtain ⟨a, b, c, heq, hwords⟩ := ih (l.setValue slot (s.readReg r))
    rw [readSources]
    refine ⟨a, b, c, ?_, fun n hregs hl => hwords n hregs ?_⟩
    · rw [heq]
      cases slot with
      | rs1 | rs2 | rs3 => rfl
    · obtain ⟨hpc, himm, h1, h2, h3, hb, hm, ha⟩ := Latch.wordsFit_iff.mp hl
      have hr := hregs r
      cases slot with
      | rs1 => exact Latch.wordsFit_iff.mpr ⟨hpc, himm, hr, h2, h3, hb, hm, ha⟩
      | rs2 => exact Latch.wordsFit_iff.mpr ⟨hpc, himm, h1, hr, h3, hb, hm, ha⟩
      | rs3 => exact Latch.wordsFit_iff.mpr ⟨hpc, himm, h1, h2, hr, hb, hm, ha⟩

/-- `l` is `l0` with a stall mark and source values, words if the registers hold words. -/
def ReadFrom (s : State) (l0 l : Latch) : Prop :=
  ∃ a b c st, l = { l0 with rs1Value := a, rs2Value := b, rs3Value := c, stalled := st } ∧
    ∀ n, (∀ r, isWord n (s.readReg r) = true) → l0.wordsFit n = true → l.wordsFit n = true

theorem ReadFrom.stalled (s : State) (l : Latch) (st : Bool) : ReadFrom s l { l with stalled := st } :=
  ⟨l.rs1Value, l.rs2Value, l.rs3Value, st, rfl, fun _ _ hl => hl⟩

theorem gateAndRead_eq (srcs : List (ValueSlot × Nat)) (s : State) :
    ∃ l, ReadFrom s s.latches.drf l ∧ gateAndRead srcs s = s.setLatch .decode l := by
  by_cases hvalid : ∀ p ∈ srcs, s.isValid p.2 = true
  · obtain ⟨a, b, c, heq, hwords⟩ := readSources_eq s srcs (s.latch .decode)
    refine ⟨{ readSources s (s.latch .decode) srcs with stalled := false }, ⟨a, b, c, false, ?_, hwords⟩,
      gateAndRead_of_valid hvalid⟩
    rw [heq]
    rfl
  · obtain ⟨p, hp, hreserved⟩ : ∃ p ∈ srcs, s.isValid p.2 = false := by simpa using hvalid
    exact ⟨_, .stalled s _ true, gateAndRead_of_reserved ⟨p, hp, hreserved⟩⟩

/-- What Decode's update writes: its latch's values and stall mark, and one of a branch's budget and HALT's freeze. -/
theorem decodeUpdate_eq (i : Instr) (s : State) : ∃ l busy b haltFlag, ReadFrom s s.latches.drf l ∧
    (b = s.bstall ∨ b ≤ s.cfg.bstallMax) ∧ decodeUpdate i s = { s with
      bstall := b, haltFlag := haltFlag
      latches := { s.latches with f := { s.latches.f with busy := busy }, drf := l } } := by
  have hbudget : ∃ l b, ReadFrom s s.latches.drf l ∧ (b = s.bstall ∨ b ≤ s.cfg.bstallMax) ∧
      branchBudget s = { s with bstall := b, latches := { s.latches with drf := l } } := by
    rw [branchBudget_eq]
    split
    · exact ⟨_, _, .stalled s _ true, .inr (Nat.succ_le_of_lt (‹_ ∧ _›).2), rfl⟩
    · exact ⟨_, s.bstall, .stalled s _ false, .inl rfl, rfl⟩
  unfold decodeUpdate
  split
  · obtain ⟨l, b, hl, hb, heq⟩ := hbudget
    exact ⟨l, s.latches.f.busy, b, s.haltFlag, hl, hb, heq⟩
  · obtain ⟨l, b, hl, hb, heq⟩ := hbudget
    exact ⟨l, s.latches.f.busy, b, s.haltFlag, hl, hb, heq⟩
  · exact ⟨_, true, s.bstall, true, .stalled s _ false, .inl rfl, rfl⟩
  · obtain ⟨l, hl, heq⟩ := gateAndRead_eq (sources i) s
    exact ⟨l, s.latches.f.busy, s.bstall, s.haltFlag, hl, .inl rfl, heq⟩

theorem issue_eq (s : State) : issue s =
    { s with latches := { s.latches with ex1 := if s.latches.drf.stalled then bubble true else s.latches.drf } } := rfl

theorem runStage_decode_inv (hs : s.Inv) (hrunning : s.status = .running) (h : runStage .decode s = .next t) : t.Inv := by
  obtain ⟨-, rfl⟩ | ⟨text, rfl⟩ | ⟨f, v, -, rfl⟩ | ⟨hbusy, o, i, -, -, hi, hfields, rfl⟩ :=
    runStage_decode_next_of_running hrunning h
  · exact { hs with ex1Ok := rfl }
  · exact { hs with }
  · exact { hs with }
  · obtain ⟨l, busy, b, haltFlag, ⟨a1, a2, a3, st, rfl, -⟩, hb, heq⟩ := decodeUpdate_eq i { s with stage := .decode }
    rw [heq, issue_eq]
    refine { hs with
      bstallInBudget := hb.elim (fun h => h ▸ hs.bstallInBudget) id
      ex1Ok := ?_ }
    simp only [State.latch, Latches.get]
    split
    · rfl
    · exact Latch.inFlightOk_iff.mpr (.inr ⟨i, hi, hbusy, Bool.eq_false_of_not_eq_true ‹_›, hfields⟩)

/-! #### Fetch -/

theorem runStage_fetch_inv (hs : s.Inv) (h : runStage .fetch s = .next t) : t.Inv := by
  obtain ⟨-, rfl⟩ | ⟨-, l, hl, rfl⟩ | ⟨-, rfl⟩ := runStage_fetch_next h
  · split
    · exact { hs with }
    · exact { hs with }
  · unfold State.fetched
    split
    · exact { hs with fetchNotStalled := hl.marks.2.2 }
    · exact { hs with
        pcAligned := alignedTo_add_width _ hs.isPowerOfTwo hs.pcAligned
        fetchNotStalled := hl.marks.2.2 }
  · exact { hs with }

end

/-! ### The machine invariant over a tick -/

/-- `r` is a next state with `P`. -/
def AnswersWith (P : State → Prop) (r : Result) : Prop := ∃ t, r = .next t ∧ P t

section
variable {P Q : State → Prop} {s t : State} {r : Result} {S : Stage}

theorem Answers.with (hr : Answers r) (hP : ∀ t, r = .next t → P t) : AnswersWith P r := by
  obtain ⟨t, rfl⟩ := hr
  exact ⟨t, rfl, hP t rfl⟩

/-- A sequence answers with `P` when its first part does, its second part does from there, and a stopped run keeps `P`. -/
theorem AnswersWith.thenRun {f : State → Result} (hr : AnswersWith Q r) (hstop : ∀ u, Q u → u.status ≠ .running → P u)
    (hf : ∀ u, Q u → u.status = .running → AnswersWith P (f u)) : AnswersWith P (thenRun r f) := by
  obtain ⟨u, rfl, hu⟩ := hr
  by_cases hrunning : u.status = .running
  · rw [thenRun_of_running f hrunning]
    exact hf u hu hrunning
  · rw [thenRun_of_stopped f hrunning]
    exact ⟨u, rfl, hstop u hu hrunning⟩

theorem runStage_writeback_answersInv (hs : s.Inv) (hrunning : s.status = .running) :
    AnswersWith State.Inv (runStage .writeback s) :=
  (runStage_late_answers (by decide) hrunning hs.wbOk).with fun _ => runStage_writeback_inv hs hrunning

theorem runStage_memory2_answersInv (hs : s.Inv) (hrunning : s.status = .running) :
    AnswersWith State.Inv (runStage .memory2 s) :=
  (runStage_late_answers (by decide) hrunning hs.mem2Ok).with fun _ => runStage_memory2_inv hs hrunning

theorem runStage_memory1_answersInv (hs : s.Inv) (hrunning : s.status = .running) :
    AnswersWith State.Inv (runStage .memory1 s) :=
  (runStage_late_answers (by decide) hrunning hs.mem1Ok).with fun _ => runStage_memory1_inv hs hrunning

/-- Execute2 raises nothing, so Execute1 always runs after it and writes `L[EX2]`. -/
theorem runStage_execute2_answersInv (hs : s.Inv) (hrunning : s.status = .running) :
    AnswersWith (fun t => t.clearEx2.Inv ∧ t.status = .running) (runStage .execute2 s) :=
  (runStage_late_answers (by decide) hrunning hs.ex2Ok).with fun _ h =>
    ⟨runStage_execute2_inv hs hrunning h, ((runStage_stageFrame hrunning h).status (by simp)).trans hrunning⟩

theorem runStage_execute1_answersInv (hs : s.clearEx2.Inv) (hrunning : s.status = .running) :
    AnswersWith State.Inv (runStage .execute1 s) :=
  (runStage_late_answers (S := .execute1) (by decide) hrunning hs.ex1Ok).with fun _ => runStage_execute1_inv hs hrunning

theorem runStage_decode_answersInv (hs : s.Inv) (hrunning : s.status = .running) :
    AnswersWith State.Inv (runStage .decode s) :=
  (runStage_decode_answers hrunning).with fun _ => runStage_decode_inv hs hrunning

theorem runStage_fetch_answersInv (hs : s.Inv) : AnswersWith State.Inv (runStage .fetch s) :=
  (runStage_fetch_answers s).with fun _ => runStage_fetch_inv hs

/-- From a state with the invariant the stages of a tick answer a state with it. -/
theorem runStages_tickOrder_answersInv (hs : s.Inv) (hrunning : s.status = .running) :
    AnswersWith State.Inv (runStages tickOrder s) := by
  refine (runStage_writeback_answersInv hs hrunning).thenRun (fun _ hu _ => hu) fun u hu hrunning => ?_
  refine (runStage_memory2_answersInv hu hrunning).thenRun (fun _ hu _ => hu) fun u hu hrunning => ?_
  refine (runStage_memory1_answersInv hu hrunning).thenRun (fun _ hu _ => hu) fun u hu hrunning => ?_
  refine (runStage_execute2_answersInv hu hrunning).thenRun (fun _ hu hstopped => absurd hu.2 hstopped) fun u hu hrunning => ?_
  refine (runStage_execute1_answersInv hu.1 hrunning).thenRun (fun _ hu _ => hu) fun u hu hrunning => ?_
  refine (runStage_decode_answersInv hu hrunning).thenRun (fun _ hu _ => hu) fun u hu hrunning => ?_
  refine (runStage_fetch_answersInv hu).thenRun (fun _ hu _ => hu) fun u hu _ => ?_
  exact ⟨u, rfl, hu⟩

/-- A state with the invariant steps to a state with the invariant. -/
theorem step_answersInv (hs : s.Inv) : AnswersWith State.Inv (step s) := by
  by_cases hticks : s.ticks
  · rw [step_eq_runStages hticks]
    refine (runStages_tickOrder_answersInv (s := { s with flushedNow := false }) { hs with } hticks.1).thenRun
      (fun _ hu _ => hu) fun u hu _ => ?_
    exact ⟨_, rfl, { hu with }⟩
  · exact ⟨_, step_eq_stopped hticks, { hs with }⟩

end

/-- Settles O46: the stages of the tick keep the invariant one after the other. -/
theorem everyStepKeepsTheInvariant : Obligations.EveryStepKeepsTheInvariant := by
  intro s t hs h
  obtain ⟨u, hu, hinv⟩ := step_answersInv hs
  cases hu.symm.trans h
  exact hinv

/-- Settles O47: from the invariant each stage of the tick answers a state from which the next one does. -/
theorem everyGoodStateHasAStep : Obligations.EveryGoodStateHasAStep := by
  intro s hs
  obtain ⟨u, hu, -⟩ := step_answersInv hs
  exact ⟨u, hu⟩

end Sys2Proof.Machine
end

section
namespace Sys2Proof.Machine

/-! ### Words stay words of XLEN bits, stage by stage (R7, R21, R29, R47) -/

theorem Memory.isWord_read {n : Nat} {m : Memory} (hm : ∀ p ∈ m, isWord n p.2 = true) (a : Nat) :
    isWord n (Memory.read m a) = true := by
  induction m with
  | nil => exact isWord_zero n
  | cons q rest ih =>
    obtain ⟨k, v⟩ := q
    rw [Memory.read]
    split
    · exact hm (k, v) List.mem_cons_self
    · exact ih fun p hp => hm p (List.mem_cons_of_mem _ hp)

/-- Every latch holds words; latch by latch, so that a stage's writes are named. -/
structure Latches.WordsFit (n : Nat) (ls : Latches) : Prop where
  f : ls.f.wordsFit n = true
  drf : ls.drf.wordsFit n = true
  ex1 : ls.ex1.wordsFit n = true
  ex2 : ls.ex2.wordsFit n = true
  mem1 : ls.mem1.wordsFit n = true
  mem2 : ls.mem2.wordsFit n = true
  wb : ls.wb.wordsFit n = true

theorem Latches.WordsFit.get {n : Nat} {ls : Latches} (h : ls.WordsFit n) (S : Stage) : (ls.get S).wordsFit n = true := by
  cases S with
  | fetch => exact h.f
  | decode => exact h.drf
  | execute1 => exact h.ex1
  | execute2 => exact h.ex2
  | memory1 => exact h.mem1
  | memory2 => exact h.mem2
  | writeback => exact h.wb

/-- The literal of what a latch of words acts as is a word. -/
theorem Latch.meaning_literal?_isWord {n : Nat} {ji : Field} {l : Latch} (hl : l.wordsFit n = true) :
    (l.meaning ji).literal?.all (isWord n) = true := by
  obtain ⟨-, himm, -⟩ := Latch.wordsFit_iff.mp hl
  cases hop : l.opcode with
  | bubble | unknown _ => simp [Latch.meaning, Latch.instr?, hop, Instr.literal?]
  | op o =>
    rw [Latch.meaning_of_op hop]
    cases o with
    | jump => cases ji <;> exact himm
    | movc | addl | subl | load | store | bz | bnz => exact himm
    | _ => rfl

theorem Latch.Computed.wordsFit_of_meaning {n : Nat} {ji : Field} {l l' : Latch}
    (h : Latch.Computed n (l.meaning ji) l l') (hl : l.wordsFit n = true) : l'.wordsFit n = true :=
  h.words (Latch.meaning_literal?_isWord hl) hl

section
variable {s t : State}

theorem State.WordsFit.readReg (hs : s.WordsFit) (r : Nat) : isWord s.cfg.xlen (s.readReg r) = true := by
  by_cases hr : r < s.x.length
  · rw [State.readReg, List.getD_eq_getElem _ _ hr]
    exact hs.registers _ (List.getElem_mem hr)
  · rw [State.readReg, List.getD_eq_default _ _ (Nat.le_of_not_lt hr)]
    exact isWord_zero _

theorem State.WordsFit.entered (hs : s.WordsFit) (S : Stage) : (s.entered S).WordsFit := by
  by_cases hS : S = .execute2
  · subst hS
    rw [State.entered_execute2]
    split
    · exact { hs with pc := hs.jmpAddr }
    · exact { hs with }
  · rw [State.entered_of_ne s hS]
    exact { hs with }

theorem State.WordsFit.perLatch (hs : s.WordsFit) : s.latches.WordsFit s.cfg.xlen where
  f := hs.latches .fetch
  drf := hs.latches .decode
  ex1 := hs.latches .execute1
  ex2 := hs.latches .execute2
  mem1 := hs.latches .memory1
  mem2 := hs.latches .memory2
  wb := hs.latches .writeback

/-- An instruction whose latch holds words moves on into the next latch. -/
theorem State.WordsFit.advanced {S : Stage} {l : Latch} (hs : s.WordsFit) (hl : l.wordsFit s.cfg.xlen = true) :
    (s.advanced S l).WordsFit := by
  have hlatches := hs.perLatch
  cases S with
  | fetch => exact { hs with latches := Latches.WordsFit.get { hlatches with f := hl, drf := hl } }
  | decode => exact { hs with latches := Latches.WordsFit.get { hlatches with drf := hl, ex1 := hl } }
  | execute1 => exact { hs with latches := Latches.WordsFit.get { hlatches with ex1 := hl, ex2 := hl } }
  | execute2 => exact { hs with latches := Latches.WordsFit.get { hlatches with ex2 := hl, mem1 := hl } }
  | memory1 => exact { hs with latches := Latches.WordsFit.get { hlatches with mem1 := hl, mem2 := hl } }
  | memory2 => exact { hs with latches := Latches.WordsFit.get { hlatches with mem2 := hl, wb := hl } }
  | writeback => exact { hs with latches := Latches.WordsFit.get { hlatches with wb := hl } }

theorem runStage_writeback_wordsFit (hs : s.WordsFit) (hrunning : s.status = .running)
    (h : runStage .writeback s = .next t) : t.WordsFit := by
  obtain ⟨-, rfl⟩ | ⟨_, r, z, -, -, -, -, -, rfl⟩ | ⟨-, z, b, hb, rfl⟩ := runStage_writeback_next hrunning h
  · exact { hs with }
  · refine { hs with registers := fun v hv => ?_ }
    obtain ⟨-, -, -, -, -, hbuffer, -⟩ := Latch.wordsFit_iff.mp (hs.latches .writeback)
    obtain hv | rfl := List.mem_or_eq_of_mem_set hv
    · exact hs.registers v hv
    · exact hbuffer
  · exact { hs with }

theorem runStage_memory2_wordsFit (hs : s.WordsFit) (hrunning : s.status = .running)
    (h : runStage .memory2 s = .next t) : t.WordsFit := by
  have hstage : ({ s with stage := .memory2 } : State).WordsFit := { hs with }
  obtain ⟨-, rfl⟩ | ⟨-, rfl⟩ | ⟨-, l, rfl, hl⟩ := runStage_memory2_next hrunning h
  · exact { hs with latches := Latches.WordsFit.get { hs.perLatch with wb := bubble_wordsFit _ _ } }
  · exact { hs with }
  · refine hstage.advanced ?_
    have hown := hs.latches .memory2
    obtain rfl | ⟨k, rfl⟩ := hl
    · exact hown
    · obtain ⟨hpc, himm, h1, h2, h3, -, hm, ha⟩ := Latch.wordsFit_iff.mp hown
      exact Latch.wordsFit_iff.mpr ⟨hpc, himm, h1, h2, h3, Memory.isWord_read hs.cells k, hm, ha⟩

/-- The flush puts bubbles into the latches before Memory1, and the pc becomes a target that was staged as a word. -/
theorem State.WordsFit.branchCommit (hs : s.WordsFit) : (branchCommit s).WordsFit :=
  { hs with
    pc := hs.brTarget
    latches :=
      have hbubble := bubble_wordsFit s.cfg.xlen false
      Latches.WordsFit.get { hs.perLatch with f := hbubble, drf := hbubble, ex1 := hbubble, ex2 := hbubble } }

theorem runStage_memory1_wordsFit (hs : s.WordsFit) (hrunning : s.status = .running)
    (h : runStage .memory1 s = .next t) : t.WordsFit := by
  have hstage : ({ s with stage := .memory1 } : State).WordsFit := { hs with }
  have hown := hs.latches .memory1
  obtain ⟨-, rfl⟩ | ⟨-, rfl⟩ | ⟨-, u, rfl, ⟨-, rfl⟩ | ⟨-, rfl⟩ | ⟨-, k, -, rfl⟩⟩ := runStage_memory1_next hrunning h
  · exact { hs with latches := Latches.WordsFit.get { hs.perLatch with mem2 := bubble_wordsFit _ _ } }
  · exact { hs with }
  · exact hstage.advanced hown
  · exact hstage.branchCommit.advanced hown
  · have hwritten : ({ s with stage := .memory1, dmem := Memory.write s.dmem k s.latches.mem1.rs1Value } : State).WordsFit := by
      refine { hs with cells := fun p hp => ?_ }
      obtain ⟨-, -, hdata, -⟩ := Latch.wordsFit_iff.mp hown
      obtain hp | rfl := Memory.mem_write hp
      · exact hs.cells p hp
      · exact hdata
    exact hwritten.advanced hown

theorem State.isWord_target (s : State) (base imm : Int) : isWord s.cfg.xlen (s.target base imm) = true := isWord_toInt _

theorem runStage_execute2_wordsFit (hs : s.WordsFit) (hrunning : s.status = .running)
    (h : runStage .execute2 s = .next t) : t.WordsFit := by
  have hentered := hs.entered .execute2
  have hlatches := s.entered_latches .execute2
  obtain ⟨-, rfl⟩ | ⟨-, -, rfl⟩ | ⟨-, -, u, l, rfl, hcomputed, hu⟩ := runStage_execute2_next hrunning h
  · rw [← hlatches]
    exact { hentered with latches := Latches.WordsFit.get { hentered.perLatch with mem1 := bubble_wordsFit _ _ } }
  · rw [← hlatches]
    exact { hentered with
      latches := Latches.WordsFit.get { hentered.perLatch with
        ex2 := hentered.latches .execute2, mem1 := bubble_wordsFit _ _ } }
  · have hl := hcomputed.wordsFit_of_meaning (hs.latches .execute2)
    rw [← State.entered_cfg s .execute2] at hl
    obtain rfl | ⟨base, imm, rfl⟩ := hu
    · exact hentered.advanced hl
    · have hstaged : ({ s.entered .execute2 with brTarget := s.target base imm, brPending := true } : State).WordsFit :=
        { hentered with brTarget := s.entered_cfg .execute2 ▸ s.isWord_target base imm }
      exact hstaged.advanced hl

theorem runStage_execute1_wordsFit (hs : s.WordsFit) (hrunning : s.status = .running)
    (h : runStage .execute1 s = .next t) : t.WordsFit := by
  obtain ⟨-, rfl⟩ | ⟨-, u, l, rfl, hcomputed, hu⟩ := runStage_execute1_next hrunning h
  · exact { hs with latches := Latches.WordsFit.get { hs.perLatch with ex2 := bubble_wordsFit _ _ } }
  · have hl := hcomputed.wordsFit_of_meaning (hs.latches .execute1)
    obtain ⟨-, valid, -, rfl⟩ | ⟨-, imm, rfl⟩ := hu
    · have hreserved : ({ s with stage := .execute1, valid := valid } : State).WordsFit := { hs with }
      exact hreserved.advanced hl
    · have hredirected : (State.redirected { s with stage := .execute1 } (s.target s.latches.ex1.rs1Value imm)).WordsFit :=
        { hs with
          pc := s.isWord_target _ _
          jmpAddr := isWord_wrap _ _
          latches := Latches.WordsFit.get { hs.perLatch with drf := hs.latches .decode } }
      exact hredirected.advanced hl

theorem runStage_decode_wordsFit (hs : s.WordsFit) (hrunning : s.status = .running)
    (h : runStage .decode s = .next t) : t.WordsFit := by
  have hown := hs.latches .decode
  obtain ⟨-, rfl⟩ | ⟨text, rfl⟩ | ⟨f, v, -, rfl⟩ | ⟨-, o, i, -, -, -, -, rfl⟩ := runStage_decode_next_of_running hrunning h
  · exact { hs with
      latches := Latches.WordsFit.get { hs.perLatch with drf := hown, ex1 := bubble_wordsFit _ _ } }
  · exact { hs with }
  · exact { hs with }
  · obtain ⟨l, busy, b, haltFlag, ⟨-, -, -, -, -, hread⟩, -, heq⟩ := decodeUpdate_eq i { s with stage := .decode }
    have hl : l.wordsFit s.cfg.xlen = true := hread _ hs.readReg hown
    have hissued : (if l.stalled then bubble true else l).wordsFit s.cfg.xlen = true := by
      split
      · exact bubble_wordsFit _ _
      · exact hl
    rw [heq, issue_eq]
    exact { hs with
      latches := Latches.WordsFit.get { hs.perLatch with f := hs.latches .fetch, drf := hl, ex1 := hissued } }

/-- Fetch loads the record's words and the pc. -/
theorem State.FetchesLatch.wordsFit {l : Latch} (hl : s.FetchesLatch l) (hs : s.WordsFit) : l.wordsFit s.cfg.xlen = true := by
  have h0 := isWord_zero s.cfg.xlen
  obtain rfl | ⟨r, hr, rfl⟩ := hl
  · exact Latch.wordsFit_iff.mpr ⟨hs.pc, h0, h0, h0, h0, h0, h0, h0⟩
  · obtain ⟨-, -, hliterals⟩ := config_wordsFit_iff.mp hs.parameters
    exact Latch.wordsFit_iff.mpr ⟨hs.pc, hliterals r hr, h0, h0, h0, h0, h0, h0⟩

theorem runStage_fetch_wordsFit (hs : s.WordsFit) (h : runStage .fetch s = .next t) : t.WordsFit := by
  obtain ⟨-, rfl⟩ | ⟨-, l, hl, rfl⟩ | ⟨-, rfl⟩ := runStage_fetch_next h
  · split
    · exact { hs with }
    · exact { hs with latches := Latches.WordsFit.get { hs.perLatch with drf := bubble_wordsFit _ _ } }
  · have hfetched := hl.wordsFit hs
    unfold State.fetched
    split
    · exact { hs with latches := Latches.WordsFit.get { hs.perLatch with f := hfetched } }
    · exact { hs with
        pc := isWord_wrap _ _
        latches := Latches.WordsFit.get { hs.perLatch with f := hfetched, drf := hfetched } }
  · exact { hs with }

theorem runStage_wordsFit {S : Stage} (hs : s.WordsFit) (hrunning : s.status = .running) (h : runStage S s = .next t) :
    t.WordsFit := by
  cases S with
  | fetch => exact runStage_fetch_wordsFit hs h
  | decode => exact runStage_decode_wordsFit hs hrunning h
  | execute1 => exact runStage_execute1_wordsFit hs hrunning h
  | execute2 => exact runStage_execute2_wordsFit hs hrunning h
  | memory1 => exact runStage_memory1_wordsFit hs hrunning h
  | memory2 => exact runStage_memory2_wordsFit hs hrunning h
  | writeback => exact runStage_writeback_wordsFit hs hrunning h

end

/-- Settles O49: every stage procedure of the tick keeps words, and the tick's own writes are no words. -/
theorem everyStepKeepsWords : Obligations.EveryStepKeepsWords := by
  intro s t hs h
  obtain ⟨st, -, -, rfl⟩ | ⟨hticks, u, hu, rfl⟩ := step_next h
  · exact { hs with }
  · have hkept : u.WordsFit := runStages_induct (s := { s with flushedNow := false }) hticks.1 { hs with }
      (fun _ _ _ _ hrunning hv hw => runStage_wordsFit hv hrunning hw) hu
    unfold endedWith
    split
    · exact { hkept with }
    · exact hkept

end Sys2Proof.Machine
end

section
namespace Sys2Proof.Machine

/-! ### What no rule reads: RUN_MODE and `halt_flag` (R37, R51) -/

/-- The state with RUN_MODE `m`, and with `halt_flag` raised if `b`. Every rule only raises the flag, so each commutes with this. -/
def State.marked (m : RunMode) (b : Bool) (s : State) : State :=
  { s with cfg := { s.cfg with runMode := m }, haltFlag := s.haltFlag || b }

/-- The same in the next state of an answer. -/
def markResult (m : RunMode) (b : Bool) : Result → Result
  | .next s => .next (s.marked m b)
  | .fault e => .fault e
  | .refused e => .refused e

/-- A procedure neither reads RUN_MODE and `halt_flag` nor lowers the flag. -/
def Commutes (m : RunMode) (b : Bool) (f : State → Result) : Prop :=
  ∀ s : State, f (s.marked m b) = markResult m b (f s)

/-- A choice that the mapping leaves as it is commutes with it when both sides do. -/
theorem ite_eq_apply {α β : Type} (F : α → β) {p : Prop} {_ : Decidable p} {x y : α} {x' y' : β} (hx : x' = F x)
    (hy : y' = F y) : (if p then x' else y') = F (if p then x else y) := by
  rw [hx, hy, apply_ite F]

section
variable {m : RunMode} {b : Bool} {f : State → Result}

theorem State.marked_stage (s : State) : (s.marked m b).stage = s.stage := rfl

theorem State.marked_own (s : State) : (s.marked m b).own = s.own := rfl

theorem State.marked_nreg (s : State) : (s.marked m b).cfg.nreg = s.cfg.nreg := rfl

theorem dataIndex?_marked (s : State) (a : Int) : dataIndex? (s.marked m b).cfg a = dataIndex? s.cfg a := rfl

/-! #### How procedures are put together -/

theorem Commutes.next {g : State → State} (hg : ∀ s : State, g (s.marked m b) = (g s).marked m b) :
    Commutes m b fun s => .next (g s) :=
  fun s => congrArg Host.Outcome.next (hg s)

theorem Commutes.thenRun {g : State → State → Result} (hf : Commutes m b f)
    (hg : ∀ s u : State, g (s.marked m b) (u.marked m b) = markResult m b (g s u)) :
    Commutes m b fun s => Machine.thenRun (f s) (g s) := by
  intro s
  dsimp only
  rw [hf s]
  cases f s with
  | next u => exact ite_eq_apply (markResult m b) (hg s u) rfl
  | fault e => rfl
  | refused e => rfl

theorem Commutes.andThen {g : State → State} (hf : Commutes m b f)
    (hg : ∀ s : State, g (s.marked m b) = (g s).marked m b) : Commutes m b fun s => Machine.thenRun (f s) fun u => .next (g u) :=
  hf.thenRun (g := fun _ u => .next (g u)) fun _ u => congrArg Host.Outcome.next (hg u)

theorem Commutes.checkField {n : Field} {v : Int} {k : Nat → State → Result} (hk : ∀ r, Commutes m b (k r)) :
    Commutes m b fun s => Machine.checkField n v s fun r => k r s := by
  intro s
  simp only [Machine.checkField, State.marked_nreg]
  cases regIndex? s.cfg.nreg v with
  | none => rfl
  | some r => exact hk r s

theorem Commutes.withDest {rd : Int} {k : Nat → State → Result} (hk : ∀ r, Commutes m b (k r)) :
    Commutes m b fun s => Machine.withDest rd s fun r => k r s := by
  intro s
  simp only [Machine.withDest, State.marked_nreg]
  cases regIndex? s.cfg.nreg rd with
  | none => rfl
  | some r => exact hk r s

/-! #### Decode's actions -/

theorem readSources_marked (s : State) (srcs : List (ValueSlot × Nat)) (l : Latch) :
    readSources (s.marked m b) l srcs = readSources s l srcs := by
  induction srcs generalizing l with
  | nil => rfl
  | cons p rest ih => exact ih _

theorem gateAndRead_marked (srcs : List (ValueSlot × Nat)) (s : State) :
    gateAndRead srcs (s.marked m b) = (gateAndRead srcs s).marked m b := by
  unfold gateAndRead
  dsimp only
  rw [readSources_marked]
  exact ite_eq_apply (State.marked m b) rfl rfl

theorem decodeRI_commutes (rd rs1 : Int) : Commutes m b (decodeRI rd rs1) :=
  .checkField fun _ => .checkField fun _ => .next (gateAndRead_marked _)

theorem decodeR3_commutes (rd rs1 rs2 : Int) : Commutes m b (decodeR3 rd rs1 rs2) :=
  .checkField fun _ => .checkField fun _ => .checkField fun _ => .next (gateAndRead_marked _)

theorem branchBudget_marked (s : State) : branchBudget (s.marked m b) = (branchBudget s).marked m b :=
  ite_eq_apply (State.marked m b) rfl rfl

/-! #### The actions of the later stages -/

theorem reserve_commutes (rd : Int) : Commutes m b (reserve rd) := .withDest fun _ _ => rfl

theorem executeResult_commutes (rd : Int) {v : State → Int} (hv : ∀ s : State, v (s.marked m b) = v s) :
    Commutes m b (executeResult rd v) :=
  (reserve_commutes rd).thenRun fun _ u => by
    rw [hv]
    rfl

theorem executeLoadAddress_commutes (rd : Int) {ea : State → Int} (hea : ∀ s : State, ea (s.marked m b) = ea s) :
    Commutes m b (executeLoadAddress rd ea) :=
  (reserve_commutes rd).thenRun fun _ u => by
    rw [hea]
    rfl

theorem loadCell_commutes : Commutes m b loadCell := by
  intro s
  simp only [loadCell, memRead, dataIndex?_marked, State.marked_own]
  cases dataIndex? s.cfg s.own.memAddress with
  | none => rfl
  | some c => rfl

theorem storeCell_commutes : Commutes m b storeCell := by
  intro s
  simp only [storeCell, memWrite, dataIndex?_marked, State.marked_own]
  cases dataIndex? s.cfg s.own.memAddress with
  | none => rfl
  | some c => rfl

theorem commit_commutes (rd : Int) : Commutes m b (commit rd) :=
  .withDest fun _ => .next fun _ => ite_eq_apply (State.marked m b) rfl rfl

theorem commitWithFlag_commutes (rd : Int) : Commutes m b (commitWithFlag rd) :=
  (commit_commutes rd).thenRun fun _ _ => rfl

theorem resolveBranch_commutes : Commutes m b resolveBranch := .next fun _ => ite_eq_apply (State.marked m b) rfl rfl

/-! #### The ends of the stages, and the meanings -/

theorem handToDecode_marked (s : State) : handToDecode (s.marked m b) = (handToDecode s).marked m b :=
  ite_eq_apply (State.marked m b) rfl rfl

theorem forward_marked (s : State) : forward (s.marked m b) = (forward s).marked m b := by
  rw [forward, forward, State.marked_stage]
  cases s.stage with
  | fetch | decode | execute1 | execute2 | memory1 | memory2 | writeback => rfl

theorem countRetirement_marked (c : Bool) (s : State) :
    countRetirement c (s.marked m b) = (countRetirement c s).marked m b :=
  ite_eq_apply (State.marked m b) rfl rfl

theorem Commutes.perform {d e1 e2 m1 m2 w : State → Result} {c : State → Bool} (hd : Commutes m b d) (he1 : Commutes m b e1)
    (he2 : Commutes m b e2) (hm1 : Commutes m b m1) (hm2 : Commutes m b m2) (hw : Commutes m b w)
    (hc : ∀ s : State, c (s.marked m b) = c s) : Commutes m b fun s => Machine.perform s d e1 e2 m1 m2 w (c s) := by
  intro s
  dsimp only
  cases hstage : s.stage with
  | fetch =>
    rw [perform_fetch hstage, perform_fetch (s := s.marked m b) hstage]
    exact Commutes.next handToDecode_marked s
  | decode =>
    rw [perform_decode hstage, perform_decode (s := s.marked m b) hstage]
    exact hd.andThen (g := issue) (fun _ => rfl) s
  | execute1 =>
    rw [perform_execute1 hstage, perform_execute1 (s := s.marked m b) hstage]
    exact he1.andThen forward_marked s
  | execute2 =>
    rw [perform_execute2 hstage, perform_execute2 (s := s.marked m b) hstage]
    exact he2.andThen forward_marked s
  | memory1 =>
    rw [perform_memory1 hstage, perform_memory1 (s := s.marked m b) hstage]
    exact hm1.andThen forward_marked s
  | memory2 =>
    rw [perform_memory2 hstage, perform_memory2 (s := s.marked m b) hstage]
    exact hm2.andThen forward_marked s
  | writeback =>
    rw [perform_writeback hstage, perform_writeback (s := s.marked m b) hstage, hc]
    exact hw.andThen (countRetirement_marked _) s

/-- Of a meaning only its actions are left to look at. -/
theorem commutes_of_perform {i : Instr} {d e1 e2 m1 m2 w : State → Result} {c : State → Bool}
    (hi : ∀ s, exec i s = Machine.perform s d e1 e2 m1 m2 w (c s)) (hd : Commutes m b d)
    (he1 : Commutes m b e1 := by exact fun _ => rfl) (he2 : Commutes m b e2 := by exact fun _ => rfl)
    (hm1 : Commutes m b m1 := by exact fun _ => rfl) (hm2 : Commutes m b m2 := by exact fun _ => rfl)
    (hw : Commutes m b w := by exact fun _ => rfl) (hc : ∀ s : State, c (s.marked m b) = c s := by exact fun _ => rfl) :
    Commutes m b (exec i) := by
  rw [funext hi]
  exact .perform hd he1 he2 hm1 hm2 hw hc

theorem exec_commutes (i : Instr) : Commutes m b (exec i) := by
  cases i with
  | movc rd _ =>
    exact commutes_of_perform (fun _ => rfl) (.checkField fun _ _ => rfl) (he1 := executeResult_commutes rd fun _ => rfl)
      (hw := commit_commutes rd)
  | add rd _ _ | sub rd _ _ | mul rd _ _ =>
    exact commutes_of_perform (fun _ => rfl) (decodeR3_commutes rd _ _) (he1 := executeResult_commutes rd fun _ => rfl)
      (hw := commitWithFlag_commutes rd)
  | addl rd _ _ | subl rd _ _ =>
    exact commutes_of_perform (fun _ => rfl) (decodeRI_commutes rd _) (he1 := executeResult_commutes rd fun _ => rfl)
      (hw := commitWithFlag_commutes rd)
  | and rd _ _ | or rd _ _ | xor rd _ _ =>
    exact commutes_of_perform (fun _ => rfl) (decodeR3_commutes rd _ _) (he1 := reserve_commutes rd) (hw := commit_commutes rd)
  | load rd _ _ =>
    exact commutes_of_perform (fun _ => rfl) (decodeRI_commutes rd _) (he1 := executeLoadAddress_commutes rd fun _ => rfl)
      (hm2 := loadCell_commutes) (hw := commit_commutes rd)
  | ldr rd _ _ =>
    exact commutes_of_perform (fun _ => rfl) (decodeR3_commutes rd _ _) (he1 := executeLoadAddress_commutes rd fun _ => rfl)
      (hm2 := loadCell_commutes) (hw := commit_commutes rd)
  | store _ _ _ =>
    exact commutes_of_perform (fun _ => rfl) (.checkField fun _ => .checkField fun _ => .next (gateAndRead_marked _))
      (hm1 := storeCell_commutes)
  | str _ _ _ =>
    exact commutes_of_perform (fun _ => rfl)
      (.checkField fun _ => .checkField fun _ => .checkField fun _ => .next (gateAndRead_marked _))
      (hm1 := storeCell_commutes)
  | bz _ | bnz _ =>
    exact commutes_of_perform (fun _ => rfl) (.next branchBudget_marked)
      (he2 := .next fun _ => ite_eq_apply (State.marked m b) rfl rfl) (hm1 := resolveBranch_commutes)
  | jump base _ =>
    exact commutes_of_perform (fun _ => rfl) fun s =>
      Commutes.checkField (n := s.cfg.jumpBase) (fun _ => .next (gateAndRead_marked _)) s
  | halt | nop => exact commutes_of_perform (fun _ => rfl) fun _ => rfl

/-! #### The stage procedures and the step -/

theorem runOwn_commutes : Commutes m b runOwn := by
  intro s
  cases hi : s.own.instr? s.cfg.jumpBase with
  | some i =>
    rw [runOwn_of_instr? hi, runOwn_of_instr? (s := s.marked m b) hi]
    exact exec_commutes i s
  | none =>
    have hi' : (s.marked m b).own.instr? (s.marked m b).cfg.jumpBase = none := hi
    rw [runOwn, runOwn, hi, hi']
    exact Commutes.perform (c := fun _ => true) (fun _ => rfl) (fun _ => rfl) (fun _ => rfl) (fun _ => rfl) (fun _ => rfl)
      (fun _ => rfl) (fun _ => rfl) s

theorem runIfActive_commutes : Commutes m b runIfActive := by
  intro s
  cases hactive : s.own.active with
  | true =>
    rw [runIfActive, runIfActive, State.marked_own, if_pos hactive, if_pos hactive]
    exact runOwn_commutes s
  | false =>
    have hinactive := ne_true_of_eq_false hactive
    rw [runIfActive, runIfActive, State.marked_own, if_neg hinactive, if_neg hinactive]
    exact Commutes.next forward_marked s

theorem applyRedirect_marked (s : State) : applyRedirect (s.marked m b) = (applyRedirect s).marked m b :=
  ite_eq_apply (State.marked m b) rfl rfl

theorem runStage_decode_commutes : Commutes m b (runStage .decode) := by
  intro s
  by_cases hskip : s.latches.drf.busy = true ∨ s.latches.drf.opcode = .bubble
  · rw [runStage_decode_of_not_decoded hskip, runStage_decode_of_not_decoded (s := s.marked m b) hskip]
    rfl
  · obtain ⟨hbusy, hbubble⟩ := not_or.mp hskip
    rw [Bool.not_eq_true] at hbusy
    cases hop : s.latches.drf.opcode with
    | bubble => exact absurd hop hbubble
    | unknown text =>
      rw [runStage_decode_of_unknown hbusy hop, runStage_decode_of_unknown (s := s.marked m b) hbusy hop]
      rfl
    | op o =>
      rw [runStage_decode_of_op hbusy hop, runStage_decode_of_op (s := s.marked m b) hbusy hop]
      exact runOwn_commutes { s with stage := .decode }

theorem fetched_marked (s : State) (l : Latch) : (s.marked m b).fetched l = (s.fetched l).marked m b :=
  ite_eq_apply (State.marked m b) rfl rfl

theorem runStage_fetch_commutes : Commutes m b (runStage .fetch) := by
  intro s
  cases hheld : fetchHeld s with
  | true =>
    rw [runStage_fetch_of_held hheld, runStage_fetch_of_held (s := s.marked m b) hheld]
    exact congrArg Host.Outcome.next (ite_eq_apply (State.marked m b) rfl rfl)
  | false =>
    cases hcode : codeAt? s with
    | some r =>
      rw [runStage_fetch_of_codeAt? hheld hcode, runStage_fetch_of_codeAt? (s := s.marked m b) hheld hcode]
      exact congrArg Host.Outcome.next (fetched_marked _ _)
    | none =>
      cases hoob : s.cfg.fetchOob with
      | bubble =>
        rw [runStage_fetch_of_bubble hheld hcode hoob, runStage_fetch_of_bubble (s := s.marked m b) hheld hcode hoob]
        exact congrArg Host.Outcome.next (fetched_marked _ _)
      | fault =>
        rw [runStage_fetch_of_fault hheld hcode hoob, runStage_fetch_of_fault (s := s.marked m b) hheld hcode hoob]
        rfl

theorem runStage_commutes (S : Stage) : Commutes m b (runStage S) := by
  intro s
  cases S with
  | fetch => exact runStage_fetch_commutes s
  | decode => exact runStage_decode_commutes s
  | execute2 =>
    exact (congrArg runIfActive (applyRedirect_marked { s with stage := .execute2 })).trans (runIfActive_commutes _)
  | execute1 | memory1 | memory2 | writeback => exact runIfActive_commutes { s with stage := _ }

theorem runStages_commutes (Ss : List Stage) : Commutes m b (runStages Ss) := by
  induction Ss with
  | nil => exact fun _ => rfl
  | cons S rest ih => exact (runStage_commutes S).thenRun fun _ => ih

end

theorem step_commutes (m : RunMode) (b : Bool) : Commutes m b step := by
  intro s
  by_cases hticks : s.ticks
  · rw [step_eq_runStages hticks, step_eq_runStages (s := s.marked m b) hticks]
    exact (runStages_commutes tickOrder).andThen (m := m) (b := b) (g := advanceClock) (fun _ => rfl) { s with flushedNow := false }
  · rw [step_eq_stopped hticks, step_eq_stopped (s := s.marked m b) hticks]
    rfl

theorem State.marked_false (m : RunMode) (s : State) : s.marked m false = s.withRunMode m := by
  rw [State.marked, Bool.or_false, State.withRunMode]

theorem markResult_eq_next {m : RunMode} {b : Bool} {r : Result} {t : State} (h : markResult m b r = .next t) :
    ∃ u, r = .next u ∧ t = u.marked m b := by
  cases r with
  | next u =>
    cases h
    exact ⟨u, rfl, rfl⟩
  | fault e => cases h
  | refused e => cases h

/-- Settles O53: the step commutes with the change of RUN_MODE. -/
theorem runModeHasNoEffect : Obligations.RunModeHasNoEffect := by
  intro s t m h
  rw [← State.marked_false, ← State.marked_false, step_commutes m false s, h]
  rfl

/-- Settles O54: both states are the one with the flag lowered, with the flag raised or not. -/
theorem haltFlagIsReadByNothing : Obligations.HaltFlagIsReadByNothing := by
  intro s t b h
  have hlowered (b : Bool) : ({ s with haltFlag := false } : State).marked s.cfg.runMode b = { s with haltFlag := b } := rfl
  have hstep (b : Bool) := step_commutes s.cfg.runMode b { s with haltFlag := false }
  obtain ⟨u, hu, rfl⟩ := markResult_eq_next ((hstep s.haltFlag).symm.trans h)
  refine ⟨u.marked s.cfg.runMode b, ?_, rfl⟩
  rw [← hlowered b, hstep b, hu]
  rfl

/-- Settles O55: every stage procedure writes the field first, and a step that is no tick neither reads nor writes it. -/
theorem stageFieldCarriesNothing : Obligations.StageFieldCarriesNothing := by
  intro s t S h
  by_cases hticks : s.ticks
  · rw [step_eq_runStages hticks] at h
    exact ⟨t, (step_eq_runStages (s := { s with stage := S }) hticks).trans h, rfl⟩
  · cases (step_eq_stopped hticks).symm.trans h
    exact ⟨_, step_eq_stopped (s := { s with stage := S }) hticks, rfl⟩

end Sys2Proof.Machine
end
